-- ==== Sys2Proof/Word.lean ====
section
/-! DEFINITION. The word types of the block: a buffer slot or command word (32 bits) and a Message byte (8 bits),
00_scope.md R7. -/

namespace Sys2Proof

/-- A buffer slot, a data or response word, a duration, a microsecond value: 32 bits, unsigned (R7, R82). -/
abbrev Word := BitVec 32

/-- A Message data field or error mask: 8 bits (R7, R28). -/
abbrev Byte := BitVec 8

end Sys2Proof
end

