-- ==== Sys2Proof/Syntax.lean ====
section
/-! DEFINITION. The syntax: the register names, the instructions (one constructor per row of the opcode table), the
value types whose codes the selector holds, and the actions of the agents outside the block. -/

namespace Sys2Proof

/-- The 16 registers of the host's register space, in index order (30_encoding.md R75). -/
inductive Reg where
  | state
  | currentIndex
  | pulseNumber
  | clearLast
  | address
  | addressInv
  | command
  | commandInv
  | addressError
  | addressInvError
  | commandError
  | commandInvError
  | repeatCount
  | period
  | clockSpeed
  | bufferSize
deriving DecidableEq, Repr

/-- The five protocol states, in traversal order (R70, 10_state.md R21). -/
inductive ProtoState where
  | leadIn
  | address
  | addressInv
  | command
  | commandInv
deriving DecidableEq, Repr

/-- The outcome of the lead-in classifier (R71). -/
inductive LeadClass where
  | none
  | start
  | repeatCode
deriving DecidableEq, Repr

/-- The outcome of the pulse classifier (R72). -/
inductive PulseClass where
  | invalid
  | zero
  | one
deriving DecidableEq, Repr

/-- The four 8-bit data fields of the Message, the operand `st` of the data rows (41_data_fields.md R120). -/
inductive DataField where
  | address
  | addressInv
  | command
  | commandInv
deriving DecidableEq, Repr

/-- The instructions: the four host commands (R74) and the 28 transition rows (R78), one constructor per row of
the opcode table. A row's operands come from the buffer, none are encoded in the selector (R80). -/
inductive Instr where
  /-- `INIT` (R190). -/
  | init
  /-- `DECODE` (R191). -/
  | decode
  /-- `RDREG r` (R194). -/
  | rdreg (r : Reg)
  /-- `WRREG r, data` (R195). -/
  | wrreg (r : Reg) (data : Word)
  /-- `RETURN` (R193: the iteration whose gate fails). -/
  | ret
  /-- `LEAD.SKIP` (R103). -/
  | leadSkip
  /-- `LEAD.START` (R101). -/
  | leadStart
  /-- `LEAD.REPEAT` (R102). -/
  | leadRepeat
  /-- `ADDR.BITX` (R123). -/
  | addrBitX
  /-- `ADDR.BIT0` (R122). -/
  | addrBit0
  /-- `ADDR.BIT1` (R121). -/
  | addrBit1
  /-- `ADDR.ENDX` (R126). -/
  | addrEndX
  /-- `ADDR.END0` (R125). -/
  | addrEnd0
  /-- `ADDR.END1` (R124). -/
  | addrEnd1
  /-- `AINV.BITX` (R123). -/
  | ainvBitX
  /-- `AINV.BIT0` (R122). -/
  | ainvBit0
  /-- `AINV.BIT1` (R121). -/
  | ainvBit1
  /-- `AINV.ENDX` (R126). -/
  | ainvEndX
  /-- `AINV.END0` (R125). -/
  | ainvEnd0
  /-- `AINV.END1` (R124). -/
  | ainvEnd1
  /-- `CMD.BITX` (R123). -/
  | cmdBitX
  /-- `CMD.BIT0` (R122). -/
  | cmdBit0
  /-- `CMD.BIT1` (R121). -/
  | cmdBit1
  /-- `CMD.ENDX` (R126). -/
  | cmdEndX
  /-- `CMD.END0` (R125). -/
  | cmdEnd0
  /-- `CMD.END1` (R124). -/
  | cmdEnd1
  /-- `CINV.BITX` (R123). -/
  | cinvBitX
  /-- `CINV.BIT0` (R122). -/
  | cinvBit0
  /-- `CINV.BIT1` (R121). -/
  | cinvBit1
  /-- `CINV.FRAMEX` (R129). -/
  | cinvFrameX
  /-- `CINV.FRAME0` (R128). -/
  | cinvFrame0
  /-- `CINV.FRAME1` (R127). -/
  | cinvFrame1
deriving DecidableEq, Repr

/-- What the agents outside the block do, and when the decoder moves: one entry of the schedule that State holds
(00_scope.md R10, 20_memory.md R58). DESIGN CHOICE (log 5). -/
inductive Input where
  /-- The host sends a command byte. The data word stands beside it and is meant for `WRREG` only (R73, log 14). -/
  | command (cmd : Byte) (data : Word)
  /-- `CAP i, v` by the host: a direct write of slot i (R84). -/
  | hostWrite (i : Nat) (v : Word)
  /-- `PEEK i`: the host reads slot i (R84). -/
  | hostRead (i : Nat)
  /-- `CAP i, v` by the producer: a capture into slot i (60_exceptions.md R214). -/
  | capture (i : Nat) (v : Word)
  /-- The decoder takes one step before the entries that follow. -/
  | decoder
deriving DecidableEq, Repr, Inhabited

/-- What the agents do when the listed actions are used up. DESIGN CHOICE (log 26). -/
inductive Onward where
  /-- Nothing more comes: the producer has stopped and the host is silent (the fairness premise of R254). -/
  | quiet
  /-- The actions of l, over and over. -/
  | cycle (l : List Input)
  /-- The free values of a stream of `Config.freeInput`, from a position on: an endless run that nothing constrains. -/
  | free (stream position : Nat)
deriving DecidableEq, Repr

/-- The schedule of the agents outside the block (log 5): actions listed, oldest first, and what follows them. -/
structure Schedule where
  listed : List Input
  onward : Onward
deriving DecidableEq, Repr

/-- The schedule of which nothing is left. -/
def Schedule.empty : Schedule :=
  { listed := [], onward := .quiet }

/-- One action before all others. -/
def Schedule.cons (e : Input) (q : Schedule) : Schedule :=
  { q with listed := e :: q.listed }

/-- Who performs a `CAP i, v` line: R84 says "one producer (or host) write". -/
inductive Writer where
  | producer
  | host
deriving DecidableEq, Repr

/-- The write of one `CAP` line by its agent (R84). -/
def Writer.cap (w : Writer) (i : Nat) (v : Word) : Input :=
  match w with
  | .producer => .capture i v
  | .host => .hostWrite i v

/-- `CAPS i, v0, ..., vk`: consecutive `CAP` lines, the index wrapping at n (R85). DESIGN CHOICE (log 25): R84 and R85
leave open which agent performs the lines, so it is an argument, one agent for all of them. The host's lines wait until
a call before them is over, the producer's do not and may land inside it. -/
def Input.caps (w : Writer) (n : Nat) (i : Nat) : List Word → List Input
  | [] => []
  | v :: vs => w.cap i v :: Input.caps w n ((i + 1) % n) vs

/-- `ZERO_ALL`: the host writes 0 to every slot (R85). -/
def Input.zeroAll (n : Nat) : List Input :=
  (List.range n).map fun i => .hostWrite i 0#32

/-- `SETMSG a, ai, c, ci`: four `WRREG` commands (R85, R74), each operand a whole data word (R73). A value above 255 is
no field's, and its own line is refused (44_control.md R195). -/
def Input.setMsg (a ai c ci : Word) : List Input :=
  [.command 0x24#8 a, .command 0x25#8 ai, .command 0x26#8 c, .command 0x27#8 ci]

end Sys2Proof
end

