-- ==== Sys2Proof/Config.lean ====
section
/-! DEFINITION. The implementation parameters of the block (00_scope.md R6), fixed for a machine's lifetime, and the free
values of an endless schedule. -/

namespace Sys2Proof

/-- The legal widths of `M.repeat`: the OPEN parameter REPEAT_BITS in 8, 16, 32 (R6, decision D9). -/
inductive RepeatBits where
  | bits8
  | bits16
  | bits32
deriving DecidableEq, Repr

/-- The width as a number of bits. -/
def RepeatBits.width : RepeatBits → Nat
  | .bits8 => 8
  | .bits16 => 16
  | .bits32 => 32

/-- How a platform that views the buffer as bytes orders the bytes of a slot: the OPEN parameter
BUFFER_BYTE_ORDER, which no rule reads (20_memory.md R51, decision D18). DESIGN CHOICE (log 28): the spec lists no values
of the parameter; these two are the model's. -/
inductive ByteOrder where
  | little
  | big
deriving DecidableEq, Repr

/-- The configuration a machine is built with (R6; registers 13 to 15 of 10_state.md R27). DESIGN CHOICE (log 1):
the interface of `step` has no configuration argument, so a state carries its configuration as a constant field;
`Machine.machine` takes it as its argument. -/
structure Config where
  /-- PERIOD: the capture timer's wraparound modulus in ticks. -/
  period : Word
  /-- CLOCK_SPEED: ticks per microsecond, at least 1. -/
  clockSpeed : Word
  /-- BUFFER_SIZE: the number N of slots, 1 to 2^32. -/
  bufferSize : Nat
  /-- REPEAT_BITS: the width of `M.repeat`. -/
  repeatBits : RepeatBits
  /-- BUFFER_BYTE_ORDER, read by no rule. -/
  bufferByteOrder : ByteOrder
  /-- BUFFER_BASE, read by no rule: any natural number, the model's choice (log 28). -/
  bufferBase : Nat
deriving DecidableEq, Repr

/-- The configuration of `State.reset`. DESIGN CHOICE (log 2): PERIOD, CLOCK_SPEED, N and REPEAT_BITS are those of
95_test_vectors.md; a configuration has no reset value (10_state.md R27). -/
def Config.initial : Config :=
  { period := 8400000#32
    clockSpeed := 84#32
    bufferSize := 16
    repeatBits := .bits8
    bufferByteOrder := .little
    bufferBase := 0 }

/-- The action at a position of an endless stream of outside actions: a free value that nothing constrains (log 26). -/
opaque Config.freeInput (stream position : Nat) : Input

end Sys2Proof
end

