-- ==== Sys2Proof/WellFormed.lean ====
section
/-! DEFINITION. Well-formedness: of a configuration (00_scope.md R6), of an outside action (20_memory.md R52) and of
an instruction. An instruction's operands are bounded by their types (a `Reg` is one of 16 names, a data word has 32
bits), so every term of `Instr` is well formed; whether a `WRREG` value is legal depends on the machine and is its
meaning's check (44_control.md R195). -/

namespace Sys2Proof

/-- The configuration ranges of R6 that the types of `Config` do not already give: CLOCK_SPEED at least 1, N from 1
to 2^32. -/
abbrev Config.legal (c : Config) : Prop :=
  0 < c.clockSpeed.toNat ∧ 0 < c.bufferSize ∧ c.bufferSize ≤ 2 ^ 32

/-- A slot index of the outside agents lies in 0..N-1 (20_memory.md R52). -/
abbrev slotInRange (n i : Nat) : Prop := i < n

/-- An outside action names only slots that exist (20_memory.md R52). -/
def Input.wf (n : Nat) : Input → Bool
  | .command _ _ => true
  | .hostWrite i _ => decide (slotInRange n i)
  | .hostRead i => decide (slotInRange n i)
  | .capture i _ => decide (slotInRange n i)
  | .decoder => true

/-- Every term of `Instr` is an instruction: its operands' types carry their bounds (30_encoding.md R73, R75). -/
def Instr.wf : Instr → Bool
  | .init | .decode | .rdreg _ | .wrreg _ _ | .ret => true
  | .leadSkip | .leadStart | .leadRepeat => true
  | .addrBitX | .addrBit0 | .addrBit1 | .addrEndX | .addrEnd0 | .addrEnd1 => true
  | .ainvBitX | .ainvBit0 | .ainvBit1 | .ainvEndX | .ainvEnd0 | .ainvEnd1 => true
  | .cmdBitX | .cmdBit0 | .cmdBit1 | .cmdEndX | .cmdEnd0 | .cmdEnd1 => true
  | .cinvBitX | .cinvBit0 | .cinvBit1 | .cinvFrameX | .cinvFrame0 | .cinvFrame1 => true

end Sys2Proof
end

