-- ==== Sys2Proof/Decode.lean ====
section
/-! DEFINITION. The encodings (30_encoding.md): codes of the values, the two decoders (host command bytes, transition
selectors), the encoder, and the reading of one word of the opcode table. -/

namespace Sys2Proof

/-- R70: the 3-bit code of a protocol state. -/
def ProtoState.code : ProtoState → BitVec 3
  | .leadIn => 0#3
  | .address => 1#3
  | .addressInv => 2#3
  | .command => 3#3
  | .commandInv => 4#3

/-- R70: the state of a code; 5 to 7 are reserved. -/
def ProtoState.ofCode (n : Nat) : Option ProtoState :=
  match n with
  | 0 => some .leadIn
  | 1 => some .address
  | 2 => some .addressInv
  | 3 => some .command
  | 4 => some .commandInv
  | _ => none

/-- R71: the 2-bit code of a lead-in class. -/
def LeadClass.code : LeadClass → BitVec 2
  | .none => 0#2
  | .start => 1#2
  | .repeatCode => 2#2

/-- R72: the 2-bit code of a pulse class. -/
def PulseClass.code : PulseClass → BitVec 2
  | .invalid => 0#2
  | .zero => 1#2
  | .one => 2#2

/-- R75: the register of a 4-bit index. -/
def Reg.ofIndex (r : BitVec 4) : Reg :=
  match r.toNat with
  | 0 => .state
  | 1 => .currentIndex
  | 2 => .pulseNumber
  | 3 => .clearLast
  | 4 => .address
  | 5 => .addressInv
  | 6 => .command
  | 7 => .commandInv
  | 8 => .addressError
  | 9 => .addressInvError
  | 10 => .commandError
  | 11 => .commandInvError
  | 12 => .repeatCount
  | 13 => .period
  | 14 => .clockSpeed
  | _ => .bufferSize

/-- R75: the 4-bit index of a register. -/
def Reg.index : Reg → BitVec 4
  | .state => 0#4
  | .currentIndex => 1#4
  | .pulseNumber => 2#4
  | .clearLast => 3#4
  | .address => 4#4
  | .addressInv => 5#4
  | .command => 6#4
  | .commandInv => 7#4
  | .addressError => 8#4
  | .addressInvError => 9#4
  | .commandError => 10#4
  | .commandInvError => 11#4
  | .repeatCount => 12#4
  | .period => 13#4
  | .clockSpeed => 14#4
  | .bufferSize => 15#4

/-- What arrives to be decoded: a host command byte with its data word, or a transition selector (R73, R77, R81). -/
inductive Encoded where
  | command (cmd : Byte) (data : Word)
  | selector (sel : BitVec 7)
deriving DecidableEq, Repr

/-- What a decoder answers: an instruction, or the name of what it rejects. -/
inductive Decoded where
  | instr (i : Instr)
  /-- A command byte not listed in R74 (R79 a, 44_control.md R196). -/
  | reservedCommand
  /-- A selector that matches no row of R78 (R79 b, c). -/
  | reservedSelector
deriving DecidableEq, Repr

/-- R74: the host command of a command byte; none for a reserved byte. -/
def decodeCommand (cmd : Byte) (data : Word) : Option Instr :=
  if cmd = 0x01#8 then some .init
  else if cmd = 0x02#8 then some .decode
  else if cmd.extractLsb' 4 4 = 1#4 then some (.rdreg (Reg.ofIndex (cmd.extractLsb' 0 4)))
  else if cmd.extractLsb' 4 4 = 2#4 then some (.wrreg (Reg.ofIndex (cmd.extractLsb' 0 4)) data)
  else none

/-- One row of the transition table: a selector w takes it when `w &&& mask = pattern` (R78). -/
structure SelectorRow where
  pattern : BitVec 7
  mask : BitVec 7
  instr : Instr
deriving DecidableEq, Repr

/-- R78: `RETURN` and the LeadIn rows. -/
def controlRows : List SelectorRow :=
  [ ⟨0x40#7, 0x40#7, .ret⟩
  , ⟨0x00#7, 0x5F#7, .leadSkip⟩
  , ⟨0x08#7, 0x5F#7, .leadStart⟩
  , ⟨0x10#7, 0x5F#7, .leadRepeat⟩ ]

/-- R78: the Address rows. -/
def addrRows : List SelectorRow :=
  [ ⟨0x01#7, 0x7F#7, .addrBitX⟩
  , ⟨0x09#7, 0x7F#7, .addrBit0⟩
  , ⟨0x11#7, 0x7F#7, .addrBit1⟩
  , ⟨0x21#7, 0x7F#7, .addrEndX⟩
  , ⟨0x29#7, 0x7F#7, .addrEnd0⟩
  , ⟨0x31#7, 0x7F#7, .addrEnd1⟩ ]

/-- R78: the AddressInv rows. -/
def ainvRows : List SelectorRow :=
  [ ⟨0x02#7, 0x7F#7, .ainvBitX⟩
  , ⟨0x0A#7, 0x7F#7, .ainvBit0⟩
  , ⟨0x12#7, 0x7F#7, .ainvBit1⟩
  , ⟨0x22#7, 0x7F#7, .ainvEndX⟩
  , ⟨0x2A#7, 0x7F#7, .ainvEnd0⟩
  , ⟨0x32#7, 0x7F#7, .ainvEnd1⟩ ]

/-- R78: the Command rows. -/
def cmdRows : List SelectorRow :=
  [ ⟨0x03#7, 0x7F#7, .cmdBitX⟩
  , ⟨0x0B#7, 0x7F#7, .cmdBit0⟩
  , ⟨0x13#7, 0x7F#7, .cmdBit1⟩
  , ⟨0x23#7, 0x7F#7, .cmdEndX⟩
  , ⟨0x2B#7, 0x7F#7, .cmdEnd0⟩
  , ⟨0x33#7, 0x7F#7, .cmdEnd1⟩ ]

/-- R78: the CommandInv rows. -/
def cinvRows : List SelectorRow :=
  [ ⟨0x04#7, 0x7F#7, .cinvBitX⟩
  , ⟨0x0C#7, 0x7F#7, .cinvBit0⟩
  , ⟨0x14#7, 0x7F#7, .cinvBit1⟩
  , ⟨0x24#7, 0x7F#7, .cinvFrameX⟩
  , ⟨0x2C#7, 0x7F#7, .cinvFrame0⟩
  , ⟨0x34#7, 0x7F#7, .cinvFrame1⟩ ]

/-- R78: the whole transition table. -/
def selectorTable : List SelectorRow :=
  controlRows ++ addrRows ++ ainvRows ++ cmdRows ++ cinvRows

/-- R78: the row that a selector matches; none for a reserved selector (R79). -/
def decodeSelector (w : BitVec 7) : Option Instr :=
  (selectorTable.find? fun row => w &&& row.mask == row.pattern).map (·.instr)

/-- The decoder, total on both code spaces, rejecting by name. -/
def decode : Encoded → Decoded
  | .command cmd data =>
    match decodeCommand cmd data with
    | some i => .instr i
    | none => .reservedCommand
  | .selector w =>
    match decodeSelector w with
    | some i => .instr i
    | none => .reservedSelector

/-- The encoder, from the same tables (R74, R78): don't-care selector bits are 0, and a command without data carries
the data word 0. -/
def encode : Instr → Encoded
  | .init => .command 0x01#8 0#32
  | .decode => .command 0x02#8 0#32
  | .rdreg r => .command (1#4 ++ r.index) 0#32
  | .wrreg r data => .command (2#4 ++ r.index) data
  | .ret => .selector 0x40#7
  | .leadSkip => .selector 0x00#7
  | .leadStart => .selector 0x08#7
  | .leadRepeat => .selector 0x10#7
  | .addrBitX => .selector 0x01#7
  | .addrBit0 => .selector 0x09#7
  | .addrBit1 => .selector 0x11#7
  | .addrEndX => .selector 0x21#7
  | .addrEnd0 => .selector 0x29#7
  | .addrEnd1 => .selector 0x31#7
  | .ainvBitX => .selector 0x02#7
  | .ainvBit0 => .selector 0x0A#7
  | .ainvBit1 => .selector 0x12#7
  | .ainvEndX => .selector 0x22#7
  | .ainvEnd0 => .selector 0x2A#7
  | .ainvEnd1 => .selector 0x32#7
  | .cmdBitX => .selector 0x03#7
  | .cmdBit0 => .selector 0x0B#7
  | .cmdBit1 => .selector 0x13#7
  | .cmdEndX => .selector 0x23#7
  | .cmdEnd0 => .selector 0x2B#7
  | .cmdEnd1 => .selector 0x33#7
  | .cinvBitX => .selector 0x04#7
  | .cinvBit0 => .selector 0x0C#7
  | .cinvBit1 => .selector 0x14#7
  | .cinvFrameX => .selector 0x24#7
  | .cinvFrame0 => .selector 0x2C#7
  | .cinvFrame1 => .selector 0x34#7

/-- The match words of the four command rows of the opcode table. -/
def commandRowWords : List Byte := [0x01#8, 0x02#8, 0x10#8, 0x20#8]

/-- How a word of the opcode table is read. The table lays two code spaces, 8-bit command bytes and 7-bit selectors,
over the same numbers. DESIGN CHOICE (log 11): fewer than 8 bits are a selector; more than 8 are a command byte and its
data word; 8 bits are a command where they are a command row's own match word, else the selector they equal where
that selects a row, else a command byte. -/
def tableEncoded (nbits w : Nat) : Encoded :=
  if nbits < 8 then .selector (BitVec.ofNat 7 w)
  else if nbits = 8 ∧ BitVec.ofNat 8 w ∉ commandRowWords ∧ w < 128 ∧ (decodeSelector (BitVec.ofNat 7 w)).isSome then
    .selector (BitVec.ofNat 7 w)
  else .command (BitVec.ofNat 8 w) (BitVec.ofNat 32 (w >>> 8))

/-- The instruction that the decoder reads from an opcode-table word. -/
def decodeTableWord (nbits w : Nat) : Option Instr :=
  match decode (tableEncoded nbits w) with
  | .instr i => some i
  | .reservedCommand => none
  | .reservedSelector => none

end Sys2Proof
end

