-- ==== Sys2Proof/Machine/State.lean ====
section
/-! DEFINITION. The state of the block (10_state.md), its faults and refusals, and the state after reset. -/

namespace Sys2Proof.Machine

/-- Idle, or Busy inside a call to `Decode` (R25). -/
inductive Phase where
  | idle
  | busy
deriving DecidableEq, Repr

/-- The model faults (60_exceptions.md R211); there are no others. -/
inductive Fault where
  /-- Raised by `DECODE`, `WRREG` and an `RDREG` of register 0 to 12 before the first `INIT` (R34). Safe: the chip may go on
  where the model stops (decision D14). -/
  | notInitialised
  /-- Raised by an iteration whose selector matches no row (30_encoding.md R79). Safe: no state reaches it. -/
  | reservedSelector
deriving DecidableEq, Repr

/-- The refusals (60_exceptions.md R212), with two of the model's own. All are safe: the model stops. -/
inductive Refusal where
  /-- Raised by an arm of `exec` whose instruction has no meaning yet. No arm raises it. -/
  | notModelled (mnemonic : String)
  /-- Raised by a command byte not listed in R74 (44_control.md R196). -/
  | reservedCommand
  /-- Raised by `WRREG` of a register 13 to 15 (44_control.md R195). -/
  | readOnlyRegister
  /-- Raised by `WRREG` of a value outside the register's legal values (44_control.md R195, 30_encoding.md R75). -/
  | illegalRegisterValue
  /-- Raised by a host or producer access at a slot index of N or more (20_memory.md R52). -/
  | slotOutOfRange
  /-- Raised when a machine is built with a configuration outside the ranges of 00_scope.md R6, and by a step of a state
  that carries such a configuration (log 22). -/
  | illegalConfiguration
  /-- Raised when two instances are built that share a buffer or a Message (60_exceptions.md R222). -/
  | sharedInstance
  /-- The model's own (log 6): raised by the meaning of a host command in a Busy state. `step` never reaches it, because
  the host waits (R213). -/
  | hostWhileBusy
  /-- The model's own (log 8): raised by the meaning of a transition row in a state whose selector does not select it.
  `step` never reaches it. -/
  | rowNotSelected
deriving DecidableEq, Repr

/-- The Message record (R28). A `DELIVER` event carries a copy of it (44_control.md R197). -/
structure Message where
  address : Byte
  addressInv : Byte
  command : Byte
  commandInv : Byte
  addressError : Byte
  addressInvError : Byte
  commandError : Byte
  commandInvError : Byte
  /-- `M.repeat`, REPEAT_BITS wide, held in 32 bits (log 21). -/
  repeatCount : Word
deriving DecidableEq, Repr

/-- The Message with every field 0. -/
def Message.zero : Message :=
  { address := 0#8, addressInv := 0#8, command := 0#8, commandInv := 0#8
    addressError := 0#8, addressInvError := 0#8, commandError := 0#8, commandInvError := 0#8
    repeatCount := 0#32 }

/-- The timestamp buffer (R30, 20_memory.md R50): (slot index, value) pairs, indices strictly rising, no value 0; a slot
that is not listed reads 0, the empty slot of R56 (log 9). -/
abbrev Buffer := List (Nat × Word)

/-- The whole state: the architectural state of R20, the model-only state of R31, the configuration (log 1), the
outputs, and the schedule of the agents outside (log 5). -/
structure State where
  /-- `R.state` (R21). -/
  state : ProtoState
  /-- `R.currentIndex` (R22). -/
  currentIndex : Nat
  /-- `R.pulseNumber` (R23). -/
  pulseNumber : BitVec 3
  /-- `R.clearLast` (R24). -/
  clearLast : Bool
  /-- `R.phase` (R25). -/
  phase : Phase
  /-- `R.initialised` (R25). -/
  initialised : Bool
  /-- The Message registers (R28, R29). -/
  msg : Message
  /-- `buf[0..N-1]` (R30). -/
  buf : Buffer
  /-- PERIOD, CLOCK_SPEED, BUFFER_SIZE, REPEAT_BITS and the two parameters no rule reads (R27, 00_scope.md R6). -/
  cfg : Config
  /-- The history of `DELIVER` events, oldest first (R31 a). -/
  deliveries : List Message
  /-- The response words of `RDREG`, oldest first (30_encoding.md R73). -/
  responses : List Word
  /-- The slot values the host read by `PEEK`, oldest first (30_encoding.md R84). -/
  peeked : List Word
  /-- What the other agents do next (log 5, 26). -/
  inputs : Schedule
  /-- The fault mark (R31 b). -/
  faultMark : Option Fault
  /-- The refusal mark (R31 c). -/
  refusalMark : Option Refusal
deriving DecidableEq, Repr

/-- The machine right after reset: reset is the `INIT` command (70_reset_and_hazards.md R240), and these are its values
(R33), with nothing delivered, nothing marked and nothing scheduled (log 2, 3). -/
def State.reset : State :=
  { state := .leadIn
    currentIndex := 0
    pulseNumber := 0#3
    clearLast := false
    phase := .idle
    initialised := true
    msg := Message.zero
    buf := []
    cfg := Config.initial
    deliveries := []
    responses := []
    peeked := []
    inputs := Schedule.empty
    faultMark := none
    refusalMark := none }

/-- The machine at power-on, before the first `INIT` (R34): Idle, not initialised, nothing marked or delivered. Every
register, Message field and slot holds an unspecified value, so this is a predicate, true whatever they hold (log 4). -/
abbrev State.PowerOn (s : State) : Prop :=
  s.phase = .idle ∧ s.initialised = false ∧ s.faultMark = none ∧ s.refusalMark = none ∧ s.deliveries = []

end Sys2Proof.Machine
end

