-- ==== Sys2Proof/Machine/Ops.lean ====
section
/-! DEFINITION. The named operations over the buffer, the Message and the registers. The block has no trap entry and no
trap return (60_exceptions.md R217, R218), so there is no operation that takes an exception; recording a fault or a
refusal in its mark (R211, R212) is `State.afterOutcome`. -/

namespace Sys2Proof

/-! ## Fields, registers, bytes of a slot -/

/-- The protocol state in which a field is filled (R120). -/
def DataField.state : DataField → ProtoState
  | .address => .address
  | .addressInv => .addressInv
  | .command => .command
  | .commandInv => .commandInv

/-- The state after a field's last pulse (R120, R130). -/
def DataField.next : DataField → ProtoState
  | .address => .addressInv
  | .addressInv => .command
  | .command => .commandInv
  | .commandInv => .leadIn

/-- The registers that exist before `INIT`: indices 13 to 15 (R34, R75). -/
def Reg.isConfig : Reg → Bool
  | .period | .clockSpeed | .bufferSize => true
  | .state | .currentIndex | .pulseNumber | .clearLast => false
  | .address | .addressInv | .command | .commandInv => false
  | .addressError | .addressInvError | .commandError | .commandInvError | .repeatCount => false

/-- The byte at offset b of a slot value in a platform's byte order (R51). No rule reads it. -/
def Word.platformByte (order : ByteOrder) (v : Word) (b : Nat) : Byte :=
  match order with
  | .little => v.extractLsb' (8 * b) 8
  | .big => v.extractLsb' (8 * (3 - b)) 8

/-! ## The schedule -/

/-- The next action of a schedule and what is left: the listed actions first, then a cycle's, which go to its end again, or
a free stream's; none when nothing is left (20_memory.md R58; log 5, 26). -/
def Schedule.next (q : Schedule) : Option (Input × Schedule) :=
  match q.listed, q.onward with
  | e :: l, o => some (e, { listed := l, onward := o })
  | [], .quiet => none
  | [], .cycle [] => none
  | [], .cycle (e :: l) => some (e, { listed := [], onward := .cycle (l ++ [e]) })
  | [], .free stream position =>
    some (Config.freeInput stream position, { listed := [], onward := .free stream (position + 1) })

namespace Machine

/-! ## The buffer memory -/

/-- `MemRead(i)` (00_scope.md R9): the value of slot i; a slot that is not listed is empty and reads 0 (R56). -/
def Buffer.read : Buffer → Nat → Word
  | [], _ => 0#32
  | (a, v) :: m, i => if a = i then v else Buffer.read m i

/-- `MemWrite(i, v)` (R9), keeping the canonical form: a write of 0 removes the entry (R56). -/
def Buffer.write : Buffer → Nat → Word → Buffer
  | [], i, v => if v = 0#32 then [] else [(i, v)]
  | (a, w) :: m, i, v =>
    if i < a then (if v = 0#32 then (a, w) :: m else (i, v) :: (a, w) :: m)
    else if i = a then (if v = 0#32 then m else (i, v) :: m)
    else (a, w) :: Buffer.write m i v

/-- Every listed slot lies above lo, in rising order, below n, and holds a nonzero value. -/
def Buffer.wfFrom (n lo : Nat) : Buffer → Bool
  | [] => true
  | (a, v) :: m => decide (lo ≤ a) && decide (a < n) && decide (v ≠ 0#32) && Buffer.wfFrom n (a + 1) m

/-- The canonical form of a buffer of n slots. -/
def Buffer.wf (n : Nat) (m : Buffer) : Bool :=
  Buffer.wfFrom n 0 m

/-- Zero the k slots from index c on, modulo n: the writes of `consume(k)` (43_buffer.md R174). -/
def Buffer.zeroRun (m : Buffer) (n c : Nat) : Nat → Buffer
  | 0 => m
  | k + 1 => (Buffer.zeroRun m n c k).write ((c + k) % n) 0#32

/-- `slot(k)` (R170). -/
def State.slot (s : State) (k : Nat) : Nat :=
  (s.currentIndex + k) % s.cfg.bufferSize

/-- `slot(-1)`, the slot behind the cursor: N-1 when the cursor is 0 (R170). -/
def State.slotBehind (s : State) : Nat :=
  (s.currentIndex + (s.cfg.bufferSize - 1)) % s.cfg.bufferSize

/-- `consume(k)` (R174): zero k slots from the cursor and move the cursor past them. -/
def State.consume (k : Nat) (s : State) : State :=
  { s with
    buf := s.buf.zeroRun s.cfg.bufferSize s.currentIndex k
    currentIndex := (s.currentIndex + k) % s.cfg.bufferSize }

/-- The buffer as a platform that views it as bytes from BUFFER_BASE on sees it; none outside the buffer (R51, R56; log
19). No rule reads it. -/
def State.platformByte (s : State) (addr : Nat) : Option Byte :=
  if s.cfg.bufferBase ≤ addr ∧ addr < s.cfg.bufferBase + 4 * s.cfg.bufferSize then
    some (Word.platformByte s.cfg.bufferByteOrder (s.buf.read ((addr - s.cfg.bufferBase) / 4))
      ((addr - s.cfg.bufferBase) % 4))
  else none

/-! ## The Message -/

/-- `D(st)` (41_data_fields.md R120). -/
def Message.data (m : Message) : DataField → Byte
  | .address => m.address
  | .addressInv => m.addressInv
  | .command => m.command
  | .commandInv => m.commandInv

/-- `E(st)` (R120). -/
def Message.error (m : Message) : DataField → Byte
  | .address => m.addressError
  | .addressInv => m.addressInvError
  | .command => m.commandError
  | .commandInv => m.commandInvError

/-- Write `D(st)`. -/
def Message.setData (m : Message) (f : DataField) (v : Byte) : Message :=
  match f with
  | .address => { m with address := v }
  | .addressInv => { m with addressInv := v }
  | .command => { m with command := v }
  | .commandInv => { m with commandInv := v }

/-- Write `E(st)`. -/
def Message.setError (m : Message) (f : DataField) (v : Byte) : Message :=
  match f with
  | .address => { m with addressError := v }
  | .addressInv => { m with addressInvError := v }
  | .command => { m with commandError := v }
  | .commandInv => { m with commandInvError := v }

/-- Bit position n has weight 2^n (R120, decision D6). -/
def bitAt (n : Nat) : Byte :=
  1#8 <<< n

/-- `D(st) <- D(st) | (1 << n)` (R121, R124, R127). -/
def State.orData (f : DataField) (n : Nat) (s : State) : State :=
  { s with msg := s.msg.setData f (s.msg.data f ||| bitAt n) }

/-- `E(st) <- E(st) | (1 << n)` (R123, R126, R129). -/
def State.orError (f : DataField) (n : Nat) (s : State) : State :=
  { s with msg := s.msg.setError f (s.msg.error f ||| bitAt n) }

/-- Clear all nine fields (R28, 40_leadin.md R101). -/
def State.clearMessage (s : State) : State :=
  { s with msg := Message.zero }

/-- `M.repeat <- (M.repeat + 1) mod 2^REPEAT_BITS` (R102, decision D9). -/
def State.countRepeat (s : State) : State :=
  { s with msg := { s.msg with
      repeatCount := BitVec.ofNat 32 ((s.msg.repeatCount.toNat + 1) % 2 ^ s.cfg.repeatBits.width) } }

/-- `emit DELIVER(M)`: append a copy of the Message to the history (44_control.md R197). -/
def State.deliver (s : State) : State :=
  { s with deliveries := s.deliveries ++ [s.msg] }

/-- The `DELIVER` payload packed in one word of 64 + REPEAT_BITS bits, `address` lowest (30_encoding.md R83). -/
def Message.pack (b : RepeatBits) (m : Message) : BitVec (b.width + 64) :=
  m.repeatCount.setWidth b.width ++
    (m.commandInvError ++ m.commandError ++ m.addressInvError ++ m.addressError ++
      m.commandInv ++ m.command ++ m.addressInv ++ m.address : BitVec 64)

/-! ## Field progress -/

/-- `R.pulseNumber <- n + 1` (R121 to R123). -/
def State.advancePulse (s : State) : State :=
  { s with pulseNumber := s.pulseNumber + 1#3 }

/-- A field is complete: `R.pulseNumber <- 0`, `R.state <- q` (R124 to R129). -/
def State.completeField (q : ProtoState) (s : State) : State :=
  { s with pulseNumber := 0#3, state := q }

/-! ## The register space -/

/-- The value of a register, zero-extended to 32 bits (R75, R194). BUFFER_SIZE reads 0 when N = 2^32. -/
def State.readReg (s : State) : Reg → Word
  | .state => s.state.code.setWidth 32
  | .currentIndex => BitVec.ofNat 32 s.currentIndex
  | .pulseNumber => s.pulseNumber.setWidth 32
  | .clearLast => if s.clearLast then 1#32 else 0#32
  | .address => s.msg.address.setWidth 32
  | .addressInv => s.msg.addressInv.setWidth 32
  | .command => s.msg.command.setWidth 32
  | .commandInv => s.msg.commandInv.setWidth 32
  | .addressError => s.msg.addressError.setWidth 32
  | .addressInvError => s.msg.addressInvError.setWidth 32
  | .commandError => s.msg.commandError.setWidth 32
  | .commandInvError => s.msg.commandInvError.setWidth 32
  | .repeatCount => s.msg.repeatCount
  | .period => s.cfg.period
  | .clockSpeed => s.cfg.clockSpeed
  | .bufferSize => BitVec.ofNat 32 s.cfg.bufferSize

/-- The number of legal values of a register: `WRREG` accepts the values below it (R75). -/
def State.legalBound (s : State) : Reg → Nat
  | .state => 5
  | .currentIndex => s.cfg.bufferSize
  | .pulseNumber => 8
  | .clearLast => 2
  | .address | .addressInv | .command | .commandInv => 256
  | .addressError | .addressInvError | .commandError | .commandInvError => 256
  | .repeatCount => 2 ^ s.cfg.repeatBits.width
  | .period | .clockSpeed | .bufferSize => 0

/-- `register r <- data` for a legal value (R195); the configuration registers are never written (R27). -/
def State.writeReg (s : State) (data : Word) : Reg → State
  | .state => { s with state := (ProtoState.ofCode data.toNat).getD s.state }
  | .currentIndex => { s with currentIndex := data.toNat }
  | .pulseNumber => { s with pulseNumber := data.setWidth 3 }
  | .clearLast => { s with clearLast := decide (data = 1#32) }
  | .address => { s with msg := { s.msg with address := data.setWidth 8 } }
  | .addressInv => { s with msg := { s.msg with addressInv := data.setWidth 8 } }
  | .command => { s with msg := { s.msg with command := data.setWidth 8 } }
  | .commandInv => { s with msg := { s.msg with commandInv := data.setWidth 8 } }
  | .addressError => { s with msg := { s.msg with addressError := data.setWidth 8 } }
  | .addressInvError => { s with msg := { s.msg with addressInvError := data.setWidth 8 } }
  | .commandError => { s with msg := { s.msg with commandError := data.setWidth 8 } }
  | .commandInvError => { s with msg := { s.msg with commandInvError := data.setWidth 8 } }
  | .repeatCount => { s with msg := { s.msg with repeatCount := data } }
  | .period | .clockSpeed | .bufferSize => s

/-- The answer of `RDREG` on the command port (R73, R194). -/
def State.respond (w : Word) (s : State) : State :=
  { s with responses := s.responses ++ [w] }

/-! ## The marks -/

/-- The state after a step's outcome: a fault or a refusal sets its mark and changes nothing else (R211, R212; log 10). -/
def State.afterOutcome (s : State) : Host.Outcome State Fault Refusal → State
  | .next t => t
  | .fault f => { s with faultMark := some f }
  | .refused r => { s with refusalMark := some r }

end Machine

end Sys2Proof
end

