-- ==== Sys2Proof/Machine/Operands.lean ====
section
/-! DEFINITION. The operands of an iteration: pulse timing and classification (42_pulse_timing.md), the snapshot and the
validity gate (43_buffer.md), and the transition selector (30_encoding.md R77). -/

namespace Sys2Proof.Machine

/-! ## Pulse timing -/

/-- `duration(t_from, t_to)`: the wraparound-aware tick difference, modulo 2^32 (R150). -/
def duration (period tFrom tTo : Word) : Word :=
  if tTo < tFrom then period - tFrom + tTo else tTo - tFrom

/-- `us(ticks)`: truncated division (R151). -/
def us (clockSpeed ticks : Word) : Word :=
  ticks / clockSpeed

/-- `x ∈ (lo, hi)`, both bounds exclusive (R153). -/
abbrev inOpen (lo hi : Nat) (x : Word) : Prop :=
  lo < x.toNat ∧ x.toNat < hi

/-- `leadClass` (R154), with the bounds of R156. -/
def leadClass (mark space : Word) : LeadClass :=
  if inOpen 8750 9250 mark ∧ inOpen 4250 4750 space then .start
  else if inOpen 8750 9250 mark ∧ inOpen 2250 2750 space then .repeatCode
  else .none

/-- `decodePulse` (R155), with the bounds of R156. -/
def decodePulse (mark space : Word) : PulseClass :=
  if inOpen 500 600 mark ∧ inOpen 1500 1800 space then .one
  else if inOpen 500 600 mark ∧ inOpen 500 600 space then .zero
  else .invalid

/-! ## The snapshot and the gate -/

/-- The four slot values an iteration reads, once each (R171). -/
structure Snapshot where
  t0 : Word
  t1 : Word
  t2 : Word
  t3 : Word
deriving DecidableEq, Repr

/-- The snapshot at the cursor (R171, R192). -/
def State.snapshot (s : State) : Snapshot :=
  { t0 := s.buf.read (s.slot 0)
    t1 := s.buf.read (s.slot 1)
    t2 := s.buf.read (s.slot 2)
    t3 := s.buf.read (s.slot 3) }

/-- The validity gate, term for term (R172). -/
def Snapshot.gate (t : Snapshot) : Bool :=
  (decide (t.t1 > 0#32) && decide (t.t2 > 0#32))
    || (decide (t.t0 > t.t2) && decide (t.t0 > 0#32) && decide (t.t2 > 0#32))
    || (decide (t.t0 > 0#32) && decide (t.t1 > 0#32) && decide (t.t1 > t.t3) && decide (t.t3 > 0#32))

/-- `mark` of an iteration, in microseconds (R80, R152). -/
def State.mark (s : State) : Word :=
  us s.cfg.clockSpeed (duration s.cfg.period s.snapshot.t0 s.snapshot.t1)

/-- `space` of an iteration, in microseconds (R80, R152). -/
def State.space (s : State) : Word :=
  us s.cfg.clockSpeed (duration s.cfg.period s.snapshot.t1 s.snapshot.t2)

/-! ## The selector -/

/-- `cls`: the lead-in class in `LeadIn`, else the pulse class (R77). -/
def State.cls (s : State) : BitVec 2 :=
  match s.state with
  | .leadIn => (leadClass s.mark s.space).code
  | .address | .addressInv | .command | .commandInv => (decodePulse s.mark s.space).code

/-- `last`: 1 when the pulse number is 7 (R77). -/
def State.last (s : State) : BitVec 1 :=
  if s.pulseNumber = 7#3 then 1#1 else 0#1

/-- The transition selector of an iteration (R77, R192); the don't-care bits of a failing gate are 0 (log 23). -/
def State.selector (s : State) : BitVec 7 :=
  if s.snapshot.gate then 0#1 ++ s.last ++ s.cls ++ s.state.code
  else 1#1 ++ 0#1 ++ 0#2 ++ s.state.code

/-- Row i is the one an iteration applies: the call is in progress and the selector matches i's row (R192). -/
abbrev State.Selects (s : State) (i : Instr) : Prop :=
  s.phase = .busy ∧ decodeSelector s.selector = some i

/-- The meaning of a transition row applies where its row is selected, and is refused elsewhere (R192; log 8). -/
def onRow (i : Instr) (s : State) (t : State) : Host.Outcome State Fault Refusal :=
  if s.Selects i then .next t else .refused .rowNotSelected

/-- The meaning of a host command applies while the block is Idle (60_exceptions.md R213; log 6). -/
def whileIdle (s : State) (k : Host.Outcome State Fault Refusal) : Host.Outcome State Fault Refusal :=
  match s.phase with
  | .idle => k
  | .busy => .refused .hostWhileBusy

/-- `if not R.initialised then raise Fault(NotInitialised)` (R191, R194, R195). -/
def whenInitialised (s : State) (k : Host.Outcome State Fault Refusal) : Host.Outcome State Fault Refusal :=
  if s.initialised then k else .fault .notInitialised

end Sys2Proof.Machine
end

