-- ==== Sys2Proof/Machine/Flags.lean ====
section
/-! DEFINITION. The block's only flag, `R.clearLast` (10_state.md R24, R36): how a frame end sets it and how the `DECODE`
prelude acts on it and clears it. -/

namespace Sys2Proof.Machine

/-- `if t3 == 0 then R.clearLast <- 1`, otherwise unchanged (R175). -/
def State.requestClear (t3 : Word) (s : State) : State :=
  { s with clearLast := if t3 = 0#32 then true else s.clearLast }

/-- The deferred clear: with `R.clearLast` set, zero the slot behind the cursor and clear the flag (R176). -/
def State.deferredClear (s : State) : State :=
  if s.clearLast then
    { s with buf := s.buf.write s.slotBehind 0#32, clearLast := false }
  else s

end Sys2Proof.Machine
end

