-- ==== Sys2Proof/Machine/Command.lean ====
section
/-! DEFINITION. The host commands (44_control.md). -/

namespace Sys2Proof.Machine

/-- `INIT` (R190): the reset values of 10_state.md R33; the buffer is zero-filled, so no slot is listed (log 9). -/
def execInit (s : State) : Host.Outcome State Fault Refusal :=
  whileIdle s (.next { s with
    state := .leadIn
    currentIndex := 0
    pulseNumber := 0#3
    clearLast := false
    msg := Message.zero
    buf := []
    initialised := true })

/-- `DECODE` (R191): the deferred clear, then the call begins. -/
def execDecode (s : State) : Host.Outcome State Fault Refusal :=
  whileIdle s (whenInitialised s (.next { s.deferredClear with phase := .busy }))

/-- `RDREG r` (R194): registers 13 to 15 are readable before `INIT`. -/
def execRdreg (r : Reg) (s : State) : Host.Outcome State Fault Refusal :=
  whileIdle s
    (if r.isConfig then .next (s.respond (s.readReg r))
     else whenInitialised s (.next (s.respond (s.readReg r))))

/-- `WRREG r, data` (R195): a refusal writes nothing. -/
def execWrreg (r : Reg) (data : Word) (s : State) : Host.Outcome State Fault Refusal :=
  whileIdle s (whenInitialised s
    (if r.isConfig then .refused .readOnlyRegister
     else if data.toNat < s.legalBound r then .next (s.writeReg data r)
     else .refused .illegalRegisterValue))

end Sys2Proof.Machine
end

