-- ==== Sys2Proof/Machine/Data.lean ====
section
/-! DEFINITION. The data-field rows (41_data_fields.md): for each field a pulse that is not its last (`BIT*`), its last
pulse (`END*`), and the last pulse of a frame (`FRAME*`). -/

namespace Sys2Proof.Machine

/-! ## Shared effects -/

/-- R121: set bit `R.pulseNumber` of the field. -/
def State.bitOne (f : DataField) (s : State) : State :=
  (s.orData f s.pulseNumber.toNat).advancePulse.consume 2

/-- R122: leave the field as it is (decision D7). -/
def State.bitZero (s : State) : State :=
  s.advancePulse.consume 2

/-- R123: set bit `R.pulseNumber` of the error mask. -/
def State.bitInvalid (f : DataField) (s : State) : State :=
  (s.orError f s.pulseNumber.toNat).advancePulse.consume 2

/-- R124: set bit 7 and move to the next field. -/
def State.endOne (f : DataField) (s : State) : State :=
  ((s.orData f 7).completeField f.next).consume 2

/-- R125: move to the next field. -/
def State.endZero (f : DataField) (s : State) : State :=
  (s.completeField f.next).consume 2

/-- R126: set bit 7 of the error mask and move to the next field. -/
def State.endInvalid (f : DataField) (s : State) : State :=
  ((s.orError f 7).completeField f.next).consume 2

/-- What every `FRAME*` row does after its Message write (R127 to R129, R175): the frame is over, the Message is
delivered, a missing trailing edge (t3 of the step's snapshot) is noted, four slots are consumed. -/
def State.frameEnd (t3 : Word) (s : State) : State :=
  (((s.completeField .leadIn).deliver).requestClear t3).consume 4

/-- R127. -/
def State.frameOne (s : State) : State :=
  (s.orData .commandInv 7).frameEnd s.snapshot.t3

/-- R128. -/
def State.frameZero (s : State) : State :=
  s.frameEnd s.snapshot.t3

/-- R129. -/
def State.frameInvalid (s : State) : State :=
  (s.orError .commandInv 7).frameEnd s.snapshot.t3

/-! ## address -/

/-- `ADDR.BITX` (R123). -/
def execAddrBitX (s : State) : Host.Outcome State Fault Refusal :=
  onRow .addrBitX s (s.bitInvalid .address)

/-- `ADDR.BIT0` (R122). -/
def execAddrBit0 (s : State) : Host.Outcome State Fault Refusal :=
  onRow .addrBit0 s s.bitZero

/-- `ADDR.BIT1` (R121). -/
def execAddrBit1 (s : State) : Host.Outcome State Fault Refusal :=
  onRow .addrBit1 s (s.bitOne .address)

/-- `ADDR.ENDX` (R126). -/
def execAddrEndX (s : State) : Host.Outcome State Fault Refusal :=
  onRow .addrEndX s (s.endInvalid .address)

/-- `ADDR.END0` (R125). -/
def execAddrEnd0 (s : State) : Host.Outcome State Fault Refusal :=
  onRow .addrEnd0 s (s.endZero .address)

/-- `ADDR.END1` (R124). -/
def execAddrEnd1 (s : State) : Host.Outcome State Fault Refusal :=
  onRow .addrEnd1 s (s.endOne .address)

/-! ## addressInv -/

/-- `AINV.BITX` (R123). -/
def execAinvBitX (s : State) : Host.Outcome State Fault Refusal :=
  onRow .ainvBitX s (s.bitInvalid .addressInv)

/-- `AINV.BIT0` (R122). -/
def execAinvBit0 (s : State) : Host.Outcome State Fault Refusal :=
  onRow .ainvBit0 s s.bitZero

/-- `AINV.BIT1` (R121). -/
def execAinvBit1 (s : State) : Host.Outcome State Fault Refusal :=
  onRow .ainvBit1 s (s.bitOne .addressInv)

/-- `AINV.ENDX` (R126). -/
def execAinvEndX (s : State) : Host.Outcome State Fault Refusal :=
  onRow .ainvEndX s (s.endInvalid .addressInv)

/-- `AINV.END0` (R125). -/
def execAinvEnd0 (s : State) : Host.Outcome State Fault Refusal :=
  onRow .ainvEnd0 s (s.endZero .addressInv)

/-- `AINV.END1` (R124). -/
def execAinvEnd1 (s : State) : Host.Outcome State Fault Refusal :=
  onRow .ainvEnd1 s (s.endOne .addressInv)

/-! ## command -/

/-- `CMD.BITX` (R123). -/
def execCmdBitX (s : State) : Host.Outcome State Fault Refusal :=
  onRow .cmdBitX s (s.bitInvalid .command)

/-- `CMD.BIT0` (R122). -/
def execCmdBit0 (s : State) : Host.Outcome State Fault Refusal :=
  onRow .cmdBit0 s s.bitZero

/-- `CMD.BIT1` (R121). -/
def execCmdBit1 (s : State) : Host.Outcome State Fault Refusal :=
  onRow .cmdBit1 s (s.bitOne .command)

/-- `CMD.ENDX` (R126). -/
def execCmdEndX (s : State) : Host.Outcome State Fault Refusal :=
  onRow .cmdEndX s (s.endInvalid .command)

/-- `CMD.END0` (R125). -/
def execCmdEnd0 (s : State) : Host.Outcome State Fault Refusal :=
  onRow .cmdEnd0 s (s.endZero .command)

/-- `CMD.END1` (R124). -/
def execCmdEnd1 (s : State) : Host.Outcome State Fault Refusal :=
  onRow .cmdEnd1 s (s.endOne .command)

/-! ## commandInv -/

/-- `CINV.BITX` (R123). -/
def execCinvBitX (s : State) : Host.Outcome State Fault Refusal :=
  onRow .cinvBitX s (s.bitInvalid .commandInv)

/-- `CINV.BIT0` (R122). -/
def execCinvBit0 (s : State) : Host.Outcome State Fault Refusal :=
  onRow .cinvBit0 s s.bitZero

/-- `CINV.BIT1` (R121). -/
def execCinvBit1 (s : State) : Host.Outcome State Fault Refusal :=
  onRow .cinvBit1 s (s.bitOne .commandInv)

/-- `CINV.FRAMEX` (R129). -/
def execCinvFrameX (s : State) : Host.Outcome State Fault Refusal :=
  onRow .cinvFrameX s s.frameInvalid

/-- `CINV.FRAME0` (R128). -/
def execCinvFrame0 (s : State) : Host.Outcome State Fault Refusal :=
  onRow .cinvFrame0 s s.frameZero

/-- `CINV.FRAME1` (R127). -/
def execCinvFrame1 (s : State) : Host.Outcome State Fault Refusal :=
  onRow .cinvFrame1 s s.frameOne

end Sys2Proof.Machine
end

