-- ==== Sys2Proof/Machine/Lead.lean ====
section
/-! DEFINITION. The iteration that returns and the LeadIn rows (44_control.md R193, 40_leadin.md). -/

namespace Sys2Proof.Machine

/-- `RETURN` (R193): the call ends, nothing else changes. -/
def execReturn (s : State) : Host.Outcome State Fault Refusal :=
  onRow .ret s { s with phase := .idle }

/-- `LEAD.START` (R101): a fresh frame begins. -/
def execLeadStart (s : State) : Host.Outcome State Fault Refusal :=
  onRow .leadStart s ((s.clearMessage.completeField .address).consume 2)

/-- `LEAD.REPEAT` (R102): count the repeat code and deliver the Message as it stands. -/
def execLeadRepeat (s : State) : Host.Outcome State Fault Refusal :=
  onRow .leadRepeat s (s.countRepeat.deliver.consume 4)

/-- `LEAD.SKIP` (R103): pass one slot. -/
def execLeadSkip (s : State) : Host.Outcome State Fault Refusal :=
  onRow .leadSkip s (s.consume 1)

end Sys2Proof.Machine
end

