-- ==== Sys2Proof/Machine/Dispatch.lean ====
section
/-! DEFINITION. The dispatch: one arm per instruction. -/

namespace Sys2Proof.Machine

def exec (i : Instr) (s : State) : Host.Outcome State Fault Refusal :=
  match i with
  | .init => Sys2Proof.Machine.execInit s
  | .decode => Sys2Proof.Machine.execDecode s
  | .rdreg r => Sys2Proof.Machine.execRdreg r s
  | .wrreg r data => Sys2Proof.Machine.execWrreg r data s
  | .ret => Sys2Proof.Machine.execReturn s
  | .leadSkip => Sys2Proof.Machine.execLeadSkip s
  | .leadStart => Sys2Proof.Machine.execLeadStart s
  | .leadRepeat => Sys2Proof.Machine.execLeadRepeat s
  | .addrBitX => Sys2Proof.Machine.execAddrBitX s
  | .addrBit0 => Sys2Proof.Machine.execAddrBit0 s
  | .addrBit1 => Sys2Proof.Machine.execAddrBit1 s
  | .addrEndX => Sys2Proof.Machine.execAddrEndX s
  | .addrEnd0 => Sys2Proof.Machine.execAddrEnd0 s
  | .addrEnd1 => Sys2Proof.Machine.execAddrEnd1 s
  | .ainvBitX => Sys2Proof.Machine.execAinvBitX s
  | .ainvBit0 => Sys2Proof.Machine.execAinvBit0 s
  | .ainvBit1 => Sys2Proof.Machine.execAinvBit1 s
  | .ainvEndX => Sys2Proof.Machine.execAinvEndX s
  | .ainvEnd0 => Sys2Proof.Machine.execAinvEnd0 s
  | .ainvEnd1 => Sys2Proof.Machine.execAinvEnd1 s
  | .cmdBitX => Sys2Proof.Machine.execCmdBitX s
  | .cmdBit0 => Sys2Proof.Machine.execCmdBit0 s
  | .cmdBit1 => Sys2Proof.Machine.execCmdBit1 s
  | .cmdEndX => Sys2Proof.Machine.execCmdEndX s
  | .cmdEnd0 => Sys2Proof.Machine.execCmdEnd0 s
  | .cmdEnd1 => Sys2Proof.Machine.execCmdEnd1 s
  | .cinvBitX => Sys2Proof.Machine.execCinvBitX s
  | .cinvBit0 => Sys2Proof.Machine.execCinvBit0 s
  | .cinvBit1 => Sys2Proof.Machine.execCinvBit1 s
  | .cinvFrameX => Sys2Proof.Machine.execCinvFrameX s
  | .cinvFrame0 => Sys2Proof.Machine.execCinvFrame0 s
  | .cinvFrame1 => Sys2Proof.Machine.execCinvFrame1 s

end Sys2Proof.Machine
end

