-- ==== Sys2Proof/Machine/Ports.lean ====
section
/-! DEFINITION. The accesses of the outside agents to the buffer memory (30_encoding.md R76, R84): the host's `CAP` and
`PEEK`, and the producer's capture (60_exceptions.md R214). An index of N or more is refused (20_memory.md R52). -/

namespace Sys2Proof.Machine

/-- A host or producer write of any value to slot i; neither checks the producer's contract (R60, R214). -/
def writeSlot (i : Nat) (v : Word) (s : State) : Host.Outcome State Fault Refusal :=
  if slotInRange s.cfg.bufferSize i then .next { s with buf := s.buf.write i v }
  else .refused .slotOutOfRange

/-- The host's `PEEK i`. -/
def readSlot (i : Nat) (s : State) : Host.Outcome State Fault Refusal :=
  if slotInRange s.cfg.bufferSize i then .next { s with peeked := s.peeked ++ [s.buf.read i] }
  else .refused .slotOutOfRange

end Sys2Proof.Machine
end

