-- ==== Sys2Proof/Machine/Fetch.lean ====
section
/-! DEFINITION. What a step does: which agent moves, and which instruction it runs. The block fetches no instructions
(20_memory.md R63): while Busy an iteration's selector picks its row (44_control.md R192), while Idle the host's next
command byte is the instruction (60_exceptions.md R213). -/

namespace Sys2Proof.Machine

/-- A step runs an instruction on a state, or is done without one. -/
inductive Turn where
  | run (i : Instr) (s : State)
  | done (o : Host.Outcome State Fault Refusal)

/-- The iteration step (R192): the row its selector matches, or the fault of R79. -/
def iterationTurn (s : State) : Turn :=
  match decodeSelector s.selector with
  | some i => .run i s
  | none => .done (.fault .reservedSelector)

/-- The decoder moves: an iteration while Busy, nothing while Idle (R224; log 7). -/
def decoderTurn (s : State) : Turn :=
  match s.phase with
  | .busy => iterationTurn s
  | .idle => .done (.next s)

/-- The host sends a command byte (R74); a reserved byte is refused (R196). -/
def commandTurn (cmd : Byte) (data : Word) (s : State) : Turn :=
  match decodeCommand cmd data with
  | some i => .run i s
  | none => .done (.refused .reservedCommand)

/-- The next entry of the schedule moves (R58). The producer moves at any time; a host action waits while the block is
Busy, and the decoder moves instead (R213; log 5, 6). -/
def scheduledTurn (s : State) : Turn :=
  match s.inputs.next with
  | none => decoderTurn s
  | some (.decoder, rest) => decoderTurn { s with inputs := rest }
  | some (.capture i v, rest) => .done (writeSlot i v { s with inputs := rest })
  | some (.command cmd data, rest) =>
    match s.phase with
    | .busy => iterationTurn s
    | .idle => commandTurn cmd data { s with inputs := rest }
  | some (.hostWrite i v, rest) =>
    match s.phase with
    | .busy => iterationTurn s
    | .idle => .done (writeSlot i v { s with inputs := rest })
  | some (.hostRead i, rest) =>
    match s.phase with
    | .busy => iterationTurn s
    | .idle => .done (readSlot i { s with inputs := rest })

/-- What the next step does. A marked run stays stopped (60_exceptions.md R211, R212; log 10); a state with an illegal
configuration is refused (log 22). -/
def nextTurn (s : State) : Turn :=
  match s.faultMark, s.refusalMark with
  | some f, _ => .done (.fault f)
  | none, some r => .done (.refused r)
  | none, none => if s.cfg.legal then scheduledTurn s else .done (.refused .illegalConfiguration)

/-! ## Placing one instruction -/

/-- Mark and space in microseconds of a pulse whose class has the code `cls` in the state of code `st`. -/
def pulseFor (st cls : Nat) : Nat × Nat :=
  match st, cls with
  | 0, 1 => (9000, 4500)
  | 0, 2 => (9000, 2500)
  | 0, _ => (1, 1)
  | _, 1 => (562, 562)
  | _, 2 => (562, 1687)
  | _, _ => (1, 1)

/-- Four slots at the cursor. -/
def State.placeSlots (s : State) (t : Snapshot) : State :=
  { s with buf :=
    (((s.buf.write (s.slot 0) t.t0).write (s.slot 1) t.t1).write (s.slot 2) t.t2).write (s.slot 3) t.t3 }

/-- A Busy state whose next iteration, taken by the decoder in the next step, computes the selector `sel` (log 12): the
state code, the pulse number and the slots at the cursor are what R77 reads. A selector with `fail` = 1 needs an empty
snapshot. -/
def State.withSelector (s : State) (sel : BitVec 7) : State :=
  let st := (sel.extractLsb' 0 3).toNat
  let pulse := pulseFor st (sel.extractLsb' 3 2).toNat
  let t1 := 1#32 + BitVec.ofNat 32 pulse.1 * s.cfg.clockSpeed
  let t2 := t1 + BitVec.ofNat 32 pulse.2 * s.cfg.clockSpeed
  let q := (ProtoState.ofCode st).getD s.state
  let n := if sel.getLsbD 5 then 7#3 else if s.pulseNumber = 7#3 then 0#3 else s.pulseNumber
  let t : Snapshot :=
    if sel.getLsbD 6 then ⟨0#32, 0#32, 0#32, 0#32⟩ else ⟨1#32, t1, t2, t2 + 1#32⟩
  { s with phase := .busy, state := q, pulseNumber := n, inputs := s.inputs.cons .decoder }.placeSlots t

/-- An Idle state whose next step takes the host command (log 13). -/
def State.withCommand (s : State) (cmd : Byte) (data : Word) : State :=
  { s with phase := .idle, inputs := s.inputs.cons (.command cmd data) }

/-- Place what the decoder is given as the very next thing a step runs. -/
def State.withEncoded (s : State) : Encoded → State
  | .command cmd data => s.withCommand cmd data
  | .selector sel => s.withSelector sel

end Sys2Proof.Machine
end

