-- ==== Sys2Proof/Machine/Step.lean ====
section
/-! DEFINITION. One step of the machine, the run that records its marks, and the placing of one instruction. -/

namespace Sys2Proof.Machine

/-- One atomic step of one agent (00_scope.md R10, 20_memory.md R58). -/
def step (s : State) : Host.Outcome State Fault Refusal :=
  match nextTurn s with
  | .run i t => exec i t
  | .done o => o

/-- One step with the fault and refusal marks kept in the state (10_state.md R31; log 10). -/
def markedStep (s : State) : State :=
  s.afterOutcome (step s)

/-- The state with the instruction of an opcode-table word as what the very next step runs (log 11, 12, 13). -/
def State.withFetchWord (s : State) (nbits w : Nat) : State :=
  s.withEncoded (tableEncoded nbits w)

end Sys2Proof.Machine
end

