-- ==== Sys2Proof/Machine/Build.lean ====
section
/-! DEFINITION. Building machines: the machine of a configuration (00_scope.md R6), the configuration refusals of
60_exceptions.md R212, and the rule that two instances share neither buffer nor Message (R222). -/

namespace Sys2Proof.Machine

/-- What a machine is asked to be built with: plain numbers, and the names of its buffer and its Message. -/
structure BuildRequest where
  period : Nat
  clockSpeed : Nat
  bufferSize : Nat
  repeatBits : Nat
  bufferByteOrder : ByteOrder
  bufferBase : Nat
  bufferId : Nat
  messageId : Nat
deriving DecidableEq, Repr

/-- The legal widths of `M.repeat` (R6). -/
def repeatBitsOf (n : Nat) : Option RepeatBits :=
  if n = 8 then some .bits8
  else if n = 16 then some .bits16
  else if n = 32 then some .bits32
  else none

/-- The configuration of one machine, refused outside the ranges of R6 (R212). -/
def build (r : BuildRequest) : Except Refusal Config :=
  match repeatBitsOf r.repeatBits with
  | none => .error .illegalConfiguration
  | some b =>
    if r.period < 2 ^ 32 ∧ 0 < r.clockSpeed ∧ r.clockSpeed < 2 ^ 32 ∧ 0 < r.bufferSize ∧ r.bufferSize ≤ 2 ^ 32 then
      .ok
        { period := BitVec.ofNat 32 r.period
          clockSpeed := BitVec.ofNat 32 r.clockSpeed
          bufferSize := r.bufferSize
          repeatBits := b
          bufferByteOrder := r.bufferByteOrder
          bufferBase := r.bufferBase }
    else .error .illegalConfiguration

/-- The state that `INIT` leaves in a machine built with c (10_state.md R33, 70_reset_and_hazards.md R240). -/
def State.resetWith (c : Config) : State :=
  { State.reset with cfg := c }

/-- The machine built with a configuration, its argument (R6): every step runs under c, whatever configuration the state
it is given carries. `Sys2Proof.core` is the same step on states that carry their own (log 1). -/
def machine (c : Config) : Host.Core :=
  { State := State, Fault := Fault, Refusal := Refusal
    step := fun s => step { s with cfg := c }
    reset := State.resetWith c }

/-- A machine from plain numbers: refused outside the ranges of R6, else the machine of that configuration (R212,
70_reset_and_hazards.md R241). -/
def buildMachine (r : BuildRequest) : Except Refusal Host.Core :=
  (build r).map machine

/-- Several machines: each legal, no two sharing a buffer or a Message (R222, R212). DESIGN CHOICE (log 27): R212 gives its
construction refusals no order; from the first request on, one that shares with a later request is refused as shared,
before its own and the later configurations are looked at. -/
def buildAll : List BuildRequest → Except Refusal (List Config)
  | [] => .ok []
  | r :: rs =>
    if rs.any fun q => q.bufferId == r.bufferId || q.messageId == r.messageId then .error .sharedInstance
    else
      match build r, buildAll rs with
      | .ok c, .ok cs => .ok (c :: cs)
      | .error e, _ => .error e
      | .ok _, .error e => .error e

end Sys2Proof.Machine
end

