-- ==== Sys2Proof/Safety.lean ====
section
/-! DEFINITION. What claims take as premises: the invariant of every reachable state (10_state.md R32), the quiet call
(43_buffer.md R178) and the producer's contract (60_exceptions.md R214). -/

namespace Sys2Proof.Machine

/-- The invariant that every step keeps: the configuration is legal, the buffer is in canonical form with no slot of N
or more, a call runs only after `INIT`, and after `INIT` the cursor is below N and the repeat counter below
2^REPEAT_BITS (R32, R22, R28; the other bounds of R32 are the fields' types). -/
def State.Inv (s : State) : Prop :=
  s.cfg.legal ∧ s.buf.wf s.cfg.bufferSize = true ∧
    (s.phase = .busy → s.initialised = true) ∧
    (s.initialised = true →
      s.currentIndex < s.cfg.bufferSize ∧ s.msg.repeatCount.toNat < 2 ^ s.cfg.repeatBits.width)

/-- A run that is not stopped: neither mark is set (10_state.md R31). -/
abbrev State.Unmarked (s : State) : Prop :=
  s.faultMark = none ∧ s.refusalMark = none

/-- The number of nonzero slots of a buffer in canonical form: it lists exactly those (P of R178). -/
abbrev State.nonzeroSlots (s : State) : Nat :=
  s.buf.length

/-- A captured value is nonzero and lands on an existing slot that holds no unconsumed timestamp: the parts of the
producer's contract that one write shows (R214 a; 70_reset_and_hazards.md R243, R245). -/
abbrev State.ContractWrite (s : State) (i : Nat) (v : Word) : Prop :=
  v ≠ 0#32 ∧ i < s.cfg.bufferSize ∧ s.buf.read i = 0#32

/-- The captured edges lie in consecutive slots from index i on (R214 d): `ts k` in slot (i + k) mod N, for k below
len, and none of them is 0. -/
abbrev State.HoldsEdges (s : State) (i len : Nat) (ts : Nat → Word) : Prop :=
  ∀ k < len, s.buf.read ((i + k) % s.cfg.bufferSize) = ts k ∧ ts k ≠ 0#32

end Sys2Proof.Machine
end

