-- ==== Sys2Proof/Certificates/Slice0/Obligations.lean ====
section
/-! DEFINITION. The statements for the provers. Numbers and tables are written out from the spec's rules; the model's
`duration`, `us`, `gate`, `snapshot`, `mark` and `space` are used in the rows' statements and are themselves stated first. -/

namespace Sys2Proof.Claims

open Sys2Proof.Machine

/-! ## Vocabulary -/

/-- The selectors that decode to i are those with `sel & mask = pattern` (30_encoding.md R78). -/
def HasRow (i : Instr) (pattern mask : BitVec 7) : Prop :=
  ∀ w : BitVec 7, decode (.selector w) = .instr i ↔ w &&& mask = pattern

/-- An iteration whose gate passes, in a state that meets the invariant (44_control.md R192). -/
def Passing (s : State) : Prop :=
  s.Inv ∧ s.phase = .busy ∧ s.snapshot.gate = true

/-- From s to t, k slots are consumed: they read 0, every other slot reads as before, and the cursor moves past them
modulo N (43_buffer.md R174). -/
def Consumes (k : Nat) (s t : State) : Prop :=
  t.currentIndex = (s.currentIndex + k) % s.cfg.bufferSize ∧
    (∀ j < k, t.buf.read ((s.currentIndex + j) % s.cfg.bufferSize) = 0#32) ∧
    (∀ a, (∀ j < k, a ≠ (s.currentIndex + j) % s.cfg.bufferSize) → t.buf.read a = s.buf.read a)

/-- The `ONE` condition: mark in (500, 600), space in (1500, 1800) (42_pulse_timing.md R155). -/
def OnePulse (s : State) : Prop :=
  500 < s.mark.toNat ∧ s.mark.toNat < 600 ∧ 1500 < s.space.toNat ∧ s.space.toNat < 1800

/-- The `ZERO` condition: mark in (500, 600), space in (500, 600) (R155). -/
def ZeroPulse (s : State) : Prop :=
  500 < s.mark.toNat ∧ s.mark.toNat < 600 ∧ 500 < s.space.toNat ∧ s.space.toNat < 600

/-- Neither condition holds (R155). -/
def InvalidPulse (s : State) : Prop :=
  ¬ OnePulse s ∧ ¬ ZeroPulse s

/-- `LEAD.START`'s condition (40_leadin.md R101). -/
def StartPulse (s : State) : Prop :=
  8750 < s.mark.toNat ∧ s.mark.toNat < 9250 ∧ 4250 < s.space.toNat ∧ s.space.toNat < 4750

/-- `LEAD.REPEAT`'s condition (R102). -/
def RepeatPulse (s : State) : Prop :=
  8750 < s.mark.toNat ∧ s.mark.toNat < 9250 ∧ 2250 < s.space.toNat ∧ s.space.toNat < 2750

/-- The bit of weight 2^n in 8 bits (41_data_fields.md R120). -/
def weight (n : Nat) : Byte :=
  BitVec.ofNat 8 (2 ^ n)

/-- A field is not complete: n moves to n + 1, two slots are consumed, and the Message becomes m (R121 to R123). -/
def BitStep (i : Instr) (s : State) (m : Message) : Prop :=
  ∃ t, exec i s = .next t ∧ Consumes 2 s t ∧
    t = { s with
      msg := m, pulseNumber := BitVec.ofNat 3 (s.pulseNumber.toNat + 1)
      currentIndex := t.currentIndex, buf := t.buf }

/-- A field is complete: the state moves to q, the pulse number to 0, two slots are consumed, and the Message becomes m
(R124 to R126). -/
def EndStep (i : Instr) (s : State) (q : ProtoState) (m : Message) : Prop :=
  ∃ t, exec i s = .next t ∧ Consumes 2 s t ∧
    t = { s with msg := m, pulseNumber := 0#3, state := q, currentIndex := t.currentIndex, buf := t.buf }

/-- A frame is complete: the Message becomes m and is delivered, `clearLast` is set when the snapshot's t3 is 0, four slots
are consumed (R127 to R129). -/
def FrameStep (i : Instr) (s : State) (m : Message) : Prop :=
  ∃ t, exec i s = .next t ∧ Consumes 4 s t ∧
    t = { s with
      msg := m, pulseNumber := 0#3, state := .leadIn, deliveries := s.deliveries ++ [m]
      clearLast := if s.snapshot.t3 = 0#32 then true else s.clearLast
      currentIndex := t.currentIndex, buf := t.buf }

/-- The code of a protocol state (30_encoding.md R70). -/
def stateCode : ProtoState → Nat
  | .leadIn => 0
  | .address => 1
  | .addressInv => 2
  | .command => 3
  | .commandInv => 4

/-- The registers in the order of their indices 0 to 15 (R75). -/
def registerOrder : List Reg :=
  [.state, .currentIndex, .pulseNumber, .clearLast, .address, .addressInv, .command, .commandInv,
   .addressError, .addressInvError, .commandError, .commandInvError, .repeatCount, .period, .clockSpeed, .bufferSize]

/-- The value of a register as a number (R75). -/
def registerNat (s : State) : Reg → Nat
  | .state => stateCode s.state
  | .currentIndex => s.currentIndex
  | .pulseNumber => s.pulseNumber.toNat
  | .clearLast => if s.clearLast then 1 else 0
  | .address => s.msg.address.toNat
  | .addressInv => s.msg.addressInv.toNat
  | .command => s.msg.command.toNat
  | .commandInv => s.msg.commandInv.toNat
  | .addressError => s.msg.addressError.toNat
  | .addressInvError => s.msg.addressInvError.toNat
  | .commandError => s.msg.commandError.toNat
  | .commandInvError => s.msg.commandInvError.toNat
  | .repeatCount => s.msg.repeatCount.toNat
  | .period => s.cfg.period.toNat
  | .clockSpeed => s.cfg.clockSpeed.toNat
  | .bufferSize => if s.cfg.bufferSize = 2 ^ 32 then 0 else s.cfg.bufferSize

/-- v is a legal `WRREG` value of r; registers 13 to 15 have none (R75). -/
def LegalValue (s : State) (r : Reg) (v : Nat) : Prop :=
  match r with
  | .state => v ≤ 4
  | .currentIndex => v ≤ s.cfg.bufferSize - 1
  | .pulseNumber => v ≤ 7
  | .clearLast => v ≤ 1
  | .address | .addressInv | .command | .commandInv => v ≤ 255
  | .addressError | .addressInvError | .commandError | .commandInvError => v ≤ 255
  | .repeatCount => v ≤ 2 ^ s.cfg.repeatBits.width - 1
  | .period | .clockSpeed | .bufferSize => False

/-- One of the read-only registers 13 to 15 (R75). -/
def ConfigReg (r : Reg) : Prop :=
  r = .period ∨ r = .clockSpeed ∨ r = .bufferSize

/-- A `FRAME*` row. -/
def FrameRow (i : Instr) : Prop :=
  i = .cinvFrameX ∨ i = .cinvFrame0 ∨ i = .cinvFrame1

/-- Where a gate-passing row starts and ends (41_data_fields.md R130 a). -/
def edge : Instr → Option (ProtoState × ProtoState)
  | .leadStart => some (.leadIn, .address)
  | .leadRepeat | .leadSkip => some (.leadIn, .leadIn)
  | .addrBitX | .addrBit0 | .addrBit1 => some (.address, .address)
  | .addrEndX | .addrEnd0 | .addrEnd1 => some (.address, .addressInv)
  | .ainvBitX | .ainvBit0 | .ainvBit1 => some (.addressInv, .addressInv)
  | .ainvEndX | .ainvEnd0 | .ainvEnd1 => some (.addressInv, .command)
  | .cmdBitX | .cmdBit0 | .cmdBit1 => some (.command, .command)
  | .cmdEndX | .cmdEnd0 | .cmdEnd1 => some (.command, .commandInv)
  | .cinvBitX | .cinvBit0 | .cinvBit1 => some (.commandInv, .commandInv)
  | .cinvFrameX | .cinvFrame0 | .cinvFrame1 => some (.commandInv, .leadIn)
  | .init | .decode | .rdreg _ | .wrreg _ _ | .ret => none

/-- The next action of the schedule leaves the move to a Busy decoder: nothing is left, or a host action waits. -/
def LeavesTheMove (s : State) : Prop :=
  (∀ i v rest, s.inputs.next ≠ some (.capture i v, rest)) ∧ (∀ rest, s.inputs.next ≠ some (.decoder, rest))

/-- The mark of pulse j of a frame whose captured edges are ts, in microseconds: lead-in edges 0 to 2, pulse j from edge
2j + 2 on (41_data_fields.md R130 c). -/
def edgeMark (c : Config) (ts : Nat → Word) (e : Nat) : Nat :=
  (us c.clockSpeed (duration c.period (ts e) (ts (e + 1)))).toNat

/-- The k-step run of the machine without outside actions stays Busy. -/
def StaysBusy (s : State) (k : Nat) : Prop :=
  ∃ u, Sys2Proof.core.run k s = .next u ∧ u.phase = .busy

end Sys2Proof.Claims

open Sys2Proof Sys2Proof.Machine Sys2Proof.Claims

/-- R74: the host commands; r = cmd[3:0] is an index into the register map. -/
def Obligations.CommandBytesDecode : Prop :=
  ∀ d : Word,
    (∀ b : Byte, decode (.command b d) = .instr .init ↔ b = 0x01#8) ∧
    (∀ b : Byte, decode (.command b d) = .instr .decode ↔ b = 0x02#8) ∧
    (∀ (k : BitVec 4) (r : Reg), registerOrder[k.toNat]? = some r →
      decode (.command (1#4 ++ k) d) = .instr (.rdreg r) ∧
      decode (.command (2#4 ++ k) d) = .instr (.wrreg r d)) ∧
    (∀ b : Byte, decode (.command b d) = .reservedCommand ↔
      b ≠ 0x01#8 ∧ b ≠ 0x02#8 ∧ b.toNat / 16 ≠ 1 ∧ b.toNat / 16 ≠ 2)

/-- R74, R75, R77, R78: sample words of every family, field by field. -/
def Obligations.SampleWordsDecode : Prop :=
  decode (.command 0b00000001#8 0#32) = .instr .init ∧
    decode (.command 0b00010110#8 0#32) = .instr (.rdreg .command) ∧
    decode (.command 0b00100110#8 0x9E#32) = .instr (.wrreg .command 0x9E#32) ∧
    decode (.selector (1#1 ++ 1#1 ++ 3#2 ++ 7#3)) = .instr .ret ∧
    decode (.selector (0#1 ++ 1#1 ++ 1#2 ++ 0#3)) = .instr .leadStart ∧
    decode (.selector (0#1 ++ 0#1 ++ 2#2 ++ 1#3)) = .instr .addrBit1 ∧
    decode (.selector (0#1 ++ 1#1 ++ 0#2 ++ 2#3)) = .instr .ainvEndX ∧
    decode (.selector (0#1 ++ 0#1 ++ 1#2 ++ 3#3)) = .instr .cmdBit0 ∧
    decode (.selector (0#1 ++ 1#1 ++ 2#2 ++ 4#3)) = .instr .cinvFrame1

/-- R78, R79: rows do not overlap, `RETURN` covers fail = 1, cls = 3 and st of 5 to 7 are reserved. -/
def Obligations.SelectorTableCoversLegalSelectors : Prop :=
  ∀ w : BitVec 7,
    (selectorTable.filter fun row => w &&& row.mask == row.pattern).length ≤ 1 ∧
    (w.getLsbD 6 = true → decode (.selector w) = .instr .ret) ∧
    (w.getLsbD 6 = false →
      (decode (.selector w) = .reservedSelector ↔ w.extractLsb' 3 2 = 3#2 ∨ 5 ≤ (w.extractLsb' 0 3).toNat))

/-- 30_encoding.md: no bit of an encoding is dropped. -/
def Obligations.DecodeEncodeRoundTrip : Prop :=
  ∀ i : Instr, i.wf = true → decode (encode i) = .instr i

/-- R77, with the codes of R70 to R72; `last` and `cls` are don't-care when the gate fails. -/
def Obligations.SelectorFieldsAreComputed : Prop :=
  ∀ s : State,
    (s.selector.getLsbD 6 = true ↔ s.snapshot.gate = false) ∧
    (s.selector.extractLsb' 0 3).toNat = stateCode s.state ∧
    (s.snapshot.gate = true →
      (s.selector.getLsbD 5 = true ↔ s.pulseNumber.toNat = 7) ∧
      (s.state = .leadIn → (s.selector.extractLsb' 3 2).toNat =
        match leadClass s.mark s.space with | .none => 0 | .start => 1 | .repeatCode => 2) ∧
      (s.state ≠ .leadIn → (s.selector.extractLsb' 3 2).toNat =
        match decodePulse s.mark s.space with | .invalid => 0 | .zero => 1 | .one => 2))

/-- R79: a selector that matches no row cannot arise. -/
def Obligations.ReservedSelectorUnreachable : Prop :=
  ∀ s : State,
    (∃ i, decode (.selector s.selector) = .instr i) ∧
    (s.faultMark = none → step s ≠ .fault .reservedSelector)

/-- R150, on numbers. -/
def Obligations.DurationIsWraparoundDifference : Prop :=
  ∀ p f t : Word,
    (t.toNat < f.toNat →
      ((duration p f t).toNat : Int) = ((p.toNat : Int) - (f.toNat : Int) + (t.toNat : Int)) % (2 ^ 32 : Int)) ∧
    (f.toNat ≤ t.toNat → (duration p f t).toNat = t.toNat - f.toNat)

/-- R157 (a). -/
def Obligations.DurationIsElapsedTicksModuloPeriod : Prop :=
  ∀ p f t : Word, f.toNat < p.toNat → t.toNat < p.toNat →
    ((duration p f t).toNat : Int) = ((t.toNat : Int) - (f.toNat : Int)) % (p.toNat : Int)

/-- R151 and R157 (b). -/
def Obligations.MicrosecondsTruncate : Prop :=
  ∀ (c d : Word) (lo hi : Nat), 0 < c.toNat →
    (us c d).toNat = d.toNat / c.toNat ∧
    ((lo < (us c d).toNat ∧ (us c d).toNat < hi) ↔ ((lo + 1) * c.toNat ≤ d.toNat ∧ d.toNat + 1 ≤ hi * c.toNat))

/-- R154. -/
def Obligations.LeadClassRanges : Prop :=
  ∀ m p : Word,
    (leadClass m p = .start ↔ 8750 < m.toNat ∧ m.toNat < 9250 ∧ 4250 < p.toNat ∧ p.toNat < 4750) ∧
    (leadClass m p = .repeatCode ↔ 8750 < m.toNat ∧ m.toNat < 9250 ∧ 2250 < p.toNat ∧ p.toNat < 2750) ∧
    (leadClass m p = .none ↔
      ¬ (8750 < m.toNat ∧ m.toNat < 9250 ∧
        (4250 < p.toNat ∧ p.toNat < 4750 ∨ 2250 < p.toNat ∧ p.toNat < 2750)))

/-- R155. -/
def Obligations.PulseClassRanges : Prop :=
  ∀ m p : Word,
    (decodePulse m p = .one ↔ 500 < m.toNat ∧ m.toNat < 600 ∧ 1500 < p.toNat ∧ p.toNat < 1800) ∧
    (decodePulse m p = .zero ↔ 500 < m.toNat ∧ m.toNat < 600 ∧ 500 < p.toNat ∧ p.toNat < 600) ∧
    (decodePulse m p = .invalid ↔
      ¬ (500 < m.toNat ∧ m.toNat < 600 ∧
        (1500 < p.toNat ∧ p.toNat < 1800 ∨ 500 < p.toNat ∧ p.toNat < 600)))

/-- R172, on numbers. -/
def Obligations.GateFormula : Prop :=
  ∀ t : Snapshot, t.gate = true ↔
    (0 < t.t1.toNat ∧ 0 < t.t2.toNat) ∨
    (t.t2.toNat < t.t0.toNat ∧ 0 < t.t0.toNat ∧ 0 < t.t2.toNat) ∨
    (0 < t.t0.toNat ∧ 0 < t.t1.toNat ∧ t.t3.toNat < t.t1.toNat ∧ 0 < t.t3.toNat)

/-- R179: the table of patterns. -/
def Obligations.GateZeroPatterns : Prop :=
  ∀ t0 t1 t2 t3 : Word,
    let g := (Snapshot.mk t0 t1 t2 t3).gate
    (t1 ≠ 0#32 → t2 ≠ 0#32 → g = true) ∧
    (t0 ≠ 0#32 → t1 = 0#32 → t2 ≠ 0#32 → (g = true ↔ t2.toNat < t0.toNat)) ∧
    (t0 ≠ 0#32 → t1 ≠ 0#32 → t2 = 0#32 → t3 ≠ 0#32 → (g = true ↔ t3.toNat < t1.toNat)) ∧
    (t2 = 0#32 → t3 = 0#32 → g = false) ∧
    (t1 = 0#32 → t2 = 0#32 → g = false) ∧
    (t0 = 0#32 → t1 = 0#32 → g = false) ∧
    (t0 = 0#32 → t2 = 0#32 → g = false)

/-- R80 (with R170, R171). -/
def Obligations.IterationOperands : Prop :=
  ∀ s : State,
    s.snapshot.t0 = s.buf.read ((s.currentIndex + 0) % s.cfg.bufferSize) ∧
    s.snapshot.t1 = s.buf.read ((s.currentIndex + 1) % s.cfg.bufferSize) ∧
    s.snapshot.t2 = s.buf.read ((s.currentIndex + 2) % s.cfg.bufferSize) ∧
    s.snapshot.t3 = s.buf.read ((s.currentIndex + 3) % s.cfg.bufferSize) ∧
    s.mark = us s.cfg.clockSpeed (duration s.cfg.period s.snapshot.t0 s.snapshot.t1) ∧
    s.space = us s.cfg.clockSpeed (duration s.cfg.period s.snapshot.t1 s.snapshot.t2)

/-- R193. -/
def Obligations.ReturnEndsTheCall : Prop :=
  HasRow .ret 0x40#7 0x40#7 ∧
    ∀ s : State, s.phase = .busy → s.snapshot.gate = false → exec .ret s = .next { s with phase := .idle }

/-- R101. -/
def Obligations.LeadStartBeginsAFrame : Prop :=
  HasRow .leadStart 0x08#7 0x5F#7 ∧
    ∀ s : State, Passing s → s.state = .leadIn → StartPulse s →
      ∃ t, exec .leadStart s = .next t ∧ Consumes 2 s t ∧
        t = { s with
          msg :=
            { address := 0#8, addressInv := 0#8, command := 0#8, commandInv := 0#8
              addressError := 0#8, addressInvError := 0#8, commandError := 0#8, commandInvError := 0#8
              repeatCount := 0#32 }
          pulseNumber := 0#3, state := .address, currentIndex := t.currentIndex, buf := t.buf }

/-- R102. -/
def Obligations.LeadRepeatCountsAndDelivers : Prop :=
  HasRow .leadRepeat 0x10#7 0x5F#7 ∧
    ∀ s : State, Passing s → s.state = .leadIn → RepeatPulse s →
      ∃ t, exec .leadRepeat s = .next t ∧ Consumes 4 s t ∧
        t.msg.repeatCount.toNat = (s.msg.repeatCount.toNat + 1) % 2 ^ s.cfg.repeatBits.width ∧
        t = { s with
          msg := { s.msg with repeatCount := t.msg.repeatCount }
          deliveries := s.deliveries ++ [t.msg]
          currentIndex := t.currentIndex, buf := t.buf }

/-- R103. -/
def Obligations.LeadSkipPassesOneSlot : Prop :=
  HasRow .leadSkip 0x00#7 0x5F#7 ∧
    ∀ s : State, Passing s → s.state = .leadIn → ¬ StartPulse s → ¬ RepeatPulse s →
      ∃ t, exec .leadSkip s = .next t ∧ Consumes 1 s t ∧
        t = { s with currentIndex := t.currentIndex, buf := t.buf }

/-- R121, for ADDR, AINV, CMD, CINV. -/
def Obligations.BitOneSetsTheDataBit : Prop :=
  HasRow .addrBit1 0x11#7 0x7F#7 ∧
    HasRow .ainvBit1 0x12#7 0x7F#7 ∧
    HasRow .cmdBit1 0x13#7 0x7F#7 ∧
    HasRow .cinvBit1 0x14#7 0x7F#7 ∧
    ∀ s : State, Passing s → OnePulse s → s.pulseNumber.toNat ≤ 6 →
      (s.state = .address → BitStep .addrBit1 s { s.msg with address := s.msg.address ||| weight s.pulseNumber.toNat }) ∧
      (s.state = .addressInv → BitStep .ainvBit1 s { s.msg with addressInv := s.msg.addressInv ||| weight s.pulseNumber.toNat }) ∧
      (s.state = .command → BitStep .cmdBit1 s { s.msg with command := s.msg.command ||| weight s.pulseNumber.toNat }) ∧
      (s.state = .commandInv → BitStep .cinvBit1 s { s.msg with commandInv := s.msg.commandInv ||| weight s.pulseNumber.toNat })

/-- R122. -/
def Obligations.BitZeroKeepsTheField : Prop :=
  HasRow .addrBit0 0x09#7 0x7F#7 ∧
    HasRow .ainvBit0 0x0A#7 0x7F#7 ∧
    HasRow .cmdBit0 0x0B#7 0x7F#7 ∧
    HasRow .cinvBit0 0x0C#7 0x7F#7 ∧
    ∀ s : State, Passing s → ZeroPulse s → s.pulseNumber.toNat ≤ 6 →
      (s.state = .address → BitStep .addrBit0 s s.msg) ∧
      (s.state = .addressInv → BitStep .ainvBit0 s s.msg) ∧
      (s.state = .command → BitStep .cmdBit0 s s.msg) ∧
      (s.state = .commandInv → BitStep .cinvBit0 s s.msg)

/-- R123. -/
def Obligations.BitInvalidSetsTheErrorBit : Prop :=
  HasRow .addrBitX 0x01#7 0x7F#7 ∧
    HasRow .ainvBitX 0x02#7 0x7F#7 ∧
    HasRow .cmdBitX 0x03#7 0x7F#7 ∧
    HasRow .cinvBitX 0x04#7 0x7F#7 ∧
    ∀ s : State, Passing s → InvalidPulse s → s.pulseNumber.toNat ≤ 6 →
      (s.state = .address → BitStep .addrBitX s { s.msg with addressError := s.msg.addressError ||| weight s.pulseNumber.toNat }) ∧
      (s.state = .addressInv → BitStep .ainvBitX s { s.msg with addressInvError := s.msg.addressInvError ||| weight s.pulseNumber.toNat }) ∧
      (s.state = .command → BitStep .cmdBitX s { s.msg with commandError := s.msg.commandError ||| weight s.pulseNumber.toNat }) ∧
      (s.state = .commandInv → BitStep .cinvBitX s { s.msg with commandInvError := s.msg.commandInvError ||| weight s.pulseNumber.toNat })

/-- R124. -/
def Obligations.EndOneCompletesTheField : Prop :=
  HasRow .addrEnd1 0x31#7 0x7F#7 ∧
    HasRow .ainvEnd1 0x32#7 0x7F#7 ∧
    HasRow .cmdEnd1 0x33#7 0x7F#7 ∧
    ∀ s : State, Passing s → OnePulse s → s.pulseNumber.toNat = 7 →
      (s.state = .address → EndStep .addrEnd1 s .addressInv { s.msg with address := s.msg.address ||| 0x80#8 }) ∧
      (s.state = .addressInv → EndStep .ainvEnd1 s .command { s.msg with addressInv := s.msg.addressInv ||| 0x80#8 }) ∧
      (s.state = .command → EndStep .cmdEnd1 s .commandInv { s.msg with command := s.msg.command ||| 0x80#8 })

/-- R125. -/
def Obligations.EndZeroCompletesTheField : Prop :=
  HasRow .addrEnd0 0x29#7 0x7F#7 ∧
    HasRow .ainvEnd0 0x2A#7 0x7F#7 ∧
    HasRow .cmdEnd0 0x2B#7 0x7F#7 ∧
    ∀ s : State, Passing s → ZeroPulse s → s.pulseNumber.toNat = 7 →
      (s.state = .address → EndStep .addrEnd0 s .addressInv s.msg) ∧
      (s.state = .addressInv → EndStep .ainvEnd0 s .command s.msg) ∧
      (s.state = .command → EndStep .cmdEnd0 s .commandInv s.msg)

/-- R126. -/
def Obligations.EndInvalidCompletesTheField : Prop :=
  HasRow .addrEndX 0x21#7 0x7F#7 ∧
    HasRow .ainvEndX 0x22#7 0x7F#7 ∧
    HasRow .cmdEndX 0x23#7 0x7F#7 ∧
    ∀ s : State, Passing s → InvalidPulse s → s.pulseNumber.toNat = 7 →
      (s.state = .address → EndStep .addrEndX s .addressInv { s.msg with addressError := s.msg.addressError ||| 0x80#8 }) ∧
      (s.state = .addressInv → EndStep .ainvEndX s .command { s.msg with addressInvError := s.msg.addressInvError ||| 0x80#8 }) ∧
      (s.state = .command → EndStep .cmdEndX s .commandInv { s.msg with commandError := s.msg.commandError ||| 0x80#8 })

/-- R127. -/
def Obligations.FrameOneDelivers : Prop :=
  HasRow .cinvFrame1 0x34#7 0x7F#7 ∧
    ∀ s : State, Passing s → OnePulse s → s.pulseNumber.toNat = 7 → s.state = .commandInv →
      FrameStep .cinvFrame1 s { s.msg with commandInv := s.msg.commandInv ||| 0x80#8 }

/-- R128. -/
def Obligations.FrameZeroDelivers : Prop :=
  HasRow .cinvFrame0 0x2C#7 0x7F#7 ∧
    ∀ s : State, Passing s → ZeroPulse s → s.pulseNumber.toNat = 7 → s.state = .commandInv →
      FrameStep .cinvFrame0 s s.msg

/-- R129. -/
def Obligations.FrameInvalidDelivers : Prop :=
  HasRow .cinvFrameX 0x24#7 0x7F#7 ∧
    ∀ s : State, Passing s → InvalidPulse s → s.pulseNumber.toNat = 7 → s.state = .commandInv →
      FrameStep .cinvFrameX s { s.msg with commandInvError := s.msg.commandInvError ||| 0x80#8 }

/-- R190 and the table of 10_state.md R33. -/
def Obligations.InitLeavesTheResetValues : Prop :=
  ∀ s : State, s.phase = .idle →
    ∃ t, exec .init s = .next t ∧ (∀ a, t.buf.read a = 0#32) ∧
      t = { s with
        state := .leadIn, currentIndex := 0, pulseNumber := 0#3, clearLast := false, initialised := true
        msg :=
          { address := 0#8, addressInv := 0#8, command := 0#8, commandInv := 0#8
            addressError := 0#8, addressInvError := 0#8, commandError := 0#8, commandInvError := 0#8
            repeatCount := 0#32 }
        buf := t.buf }

/-- R191 and R176. -/
def Obligations.DecodeScrubsAndStartsTheCall : Prop :=
  ∀ s : State, s.Inv → s.phase = .idle →
    (s.initialised = false → exec .decode s = .fault .notInitialised) ∧
    (s.initialised = true →
      ∃ t, exec .decode s = .next t ∧
        t = { s with phase := .busy, clearLast := false, buf := t.buf } ∧
        (s.clearLast = false → t.buf = s.buf) ∧
        (s.clearLast = true →
          t.buf.read (if s.currentIndex = 0 then s.cfg.bufferSize - 1 else s.currentIndex - 1) = 0#32 ∧
          ∀ a, a ≠ (if s.currentIndex = 0 then s.cfg.bufferSize - 1 else s.currentIndex - 1) →
            t.buf.read a = s.buf.read a))

/-- R194, with the values of R75; that the response is appended to a history is the model's choice (log 15). -/
def Obligations.RdregAnswersTheRegister : Prop :=
  ∀ (s : State) (r : Reg), s.Inv → s.phase = .idle →
    (s.initialised = true ∨ ConfigReg r →
      ∃ v, exec (.rdreg r) s = .next { s with responses := s.responses ++ [v] } ∧ v.toNat = registerNat s r) ∧
    (s.initialised = false → ¬ ConfigReg r → exec (.rdreg r) s = .fault .notInitialised)

/-- R195 with the legal values of R75: the register written and its frame. -/
def Obligations.WrregWritesALegalValue : Prop :=
  ∀ (s : State) (r : Reg) (d : Word), s.Inv → s.phase = .idle → s.initialised = true → LegalValue s r d.toNat →
    ∃ t, exec (.wrreg r d) s = .next t ∧
      registerNat t r = d.toNat ∧
      (∀ q, q ≠ r → registerNat t q = registerNat s q) ∧
      t = { s with
        state := t.state, currentIndex := t.currentIndex, pulseNumber := t.pulseNumber
        clearLast := t.clearLast, msg := t.msg }

/-- R195: the preconditions and refusals, in its order. -/
def Obligations.WrregStopsOtherwise : Prop :=
  ∀ (s : State) (r : Reg) (d : Word), s.Inv → s.phase = .idle →
    (s.initialised = false → exec (.wrreg r d) s = .fault .notInitialised) ∧
    (s.initialised = true → ConfigReg r → exec (.wrreg r d) s = .refused .readOnlyRegister) ∧
    (s.initialised = true → ¬ ConfigReg r → ¬ LegalValue s r d.toNat →
      exec (.wrreg r d) s = .refused .illegalRegisterValue)

/-- R34: use before `INIT`; the power-on values are arbitrary (log 4). -/
def Obligations.PowerOnAcceptsOnlyInitAndConfigReads : Prop :=
  ∀ s : State, s.PowerOn →
    exec .decode s = .fault .notInitialised ∧
    (∀ r d, exec (.wrreg r d) s = .fault .notInitialised) ∧
    (∀ r, ¬ ConfigReg r → exec (.rdreg r) s = .fault .notInitialised) ∧
    (∀ r, ConfigReg r → ∃ t, exec (.rdreg r) s = .next t) ∧
    (∃ t, exec .init s = .next t)

/-- R196; that the byte arrives through the schedule (log 5) and that the refusal is kept as a mark by `markedStep`
(log 10) are the model's choices. -/
def Obligations.ReservedCommandIsRefused : Prop :=
  ∀ (s : State) (b : Byte) (d : Word) (rest : Schedule),
    s.Unmarked → s.cfg.legal → s.phase = .idle → s.inputs.next = some (.command b d, rest) →
    b ≠ 0x01#8 → b ≠ 0x02#8 → b.toNat / 16 ≠ 1 → b.toNat / 16 ≠ 2 →
      step s = .refused .reservedCommand ∧ markedStep s = { s with refusalMark := some .reservedCommand }

/-- The model's choice (log 6, log 8): where the spec gives the host no move and an iteration no such row. -/
def Obligations.MeaningsStopOutsideTheirTurn : Prop :=
  ∀ s : State,
    (s.phase = .busy →
      exec .init s = .refused .hostWhileBusy ∧ exec .decode s = .refused .hostWhileBusy ∧
      (∀ r, exec (.rdreg r) s = .refused .hostWhileBusy) ∧
      (∀ r d, exec (.wrreg r d) s = .refused .hostWhileBusy)) ∧
    (∀ i w, decode (.selector w) = .instr i → ¬ s.Selects i → exec i s = .refused .rowNotSelected)

/-- R192, R213: what a step runs; the schedule is the model's choice (log 5). -/
def Obligations.StepRunsTheDecodedInstruction : Prop :=
  ∀ (s : State) (i : Instr), s.Unmarked → s.cfg.legal →
    (∀ cmd data rest, s.phase = .idle → s.inputs.next = some (.command cmd data, rest) →
      decode (.command cmd data) = .instr i → step s = exec i { s with inputs := rest }) ∧
    (s.phase = .busy → decode (.selector s.selector) = .instr i → LeavesTheMove s → step s = exec i s) ∧
    (∀ rest, s.phase = .busy → decode (.selector s.selector) = .instr i → s.inputs.next = some (.decoder, rest) →
      step s = exec i { s with inputs := rest })

/-- R50, R52, R55, R214: the buffer port. The schedule and the record of values read are the model's choice (log 5, 15), and
so is that a host access before the first `INIT` is let through, which R34 does not say (log 4, DEDUCED). -/
def Obligations.OutsideAccessesReachOneSlot : Prop :=
  ∀ (s : State) (i : Nat) (v : Word) (rest : Schedule), s.Inv → s.Unmarked →
    (s.inputs.next = some (.capture i v, rest) ∨ (s.phase = .idle ∧ s.inputs.next = some (.hostWrite i v, rest)) →
      (i < s.cfg.bufferSize → ∃ t, step s = .next t ∧ t.buf.read i = v ∧
        (∀ a, a ≠ i → t.buf.read a = s.buf.read a) ∧ t = { s with inputs := rest, buf := t.buf }) ∧
      (s.cfg.bufferSize ≤ i → step s = .refused .slotOutOfRange)) ∧
    (s.phase = .idle → s.inputs.next = some (.hostRead i, rest) →
      (i < s.cfg.bufferSize → step s = .next { s with inputs := rest, peeked := s.peeked ++ [s.buf.read i] }) ∧
      (s.cfg.bufferSize ≤ i → step s = .refused .slotOutOfRange))

/-- R224; that this is a step at all is the model's choice (log 7). -/
def Obligations.IdleBlockWithoutInputRests : Prop :=
  ∀ s : State, s.Unmarked → s.cfg.legal → s.phase = .idle → s.inputs.next = none → step s = .next s

/-- R211, R212; how the marks are kept is the model's choice (log 10). -/
def Obligations.MarksAreNeverCleared : Prop :=
  ∀ s : State,
    (∀ f, s.faultMark = some f → step s = .fault f ∧ markedStep s = s) ∧
    (∀ r, s.faultMark = none → s.refusalMark = some r → step s = .refused r ∧ markedStep s = s) ∧
    (∀ f, step s = .fault f → markedStep s = { s with faultMark := some f }) ∧
    (∀ r, step s = .refused r → markedStep s = { s with refusalMark := some r })

/-- R33: the reset values, which `INIT` leaves (R240); that `State.reset` is that state is the model's reading (log 3), and
its configuration the model's choice (log 2). -/
def Obligations.ResetMeetsTheInvariant : Prop :=
  State.reset.Inv ∧ State.reset.Unmarked ∧
    State.reset.state = .leadIn ∧ State.reset.currentIndex = 0 ∧ State.reset.pulseNumber = 0#3 ∧
    State.reset.clearLast = false ∧ State.reset.phase = .idle ∧ State.reset.initialised = true ∧
    State.reset.msg =
      { address := 0#8, addressInv := 0#8, command := 0#8, commandInv := 0#8
        addressError := 0#8, addressInvError := 0#8, commandError := 0#8, commandInvError := 0#8
        repeatCount := 0#32 } ∧
    ∀ a, State.reset.buf.read a = 0#32

/-- R32: `R.currentIndex < N` at every step boundary after the first `INIT`, with the other bounds. -/
def Obligations.EveryStepKeepsTheInvariant : Prop :=
  ∀ s t : State, s.Inv → step s = .next t → t.Inv

/-- R242, R27: no command touches the configuration. -/
def Obligations.ConfigurationNeverChanges : Prop :=
  ∀ s t : State, step s = .next t → t.cfg = s.cfg

/-- R197: who emits `DELIVER`, and what it carries. -/
def Obligations.DeliveriesOnlyByRepeatAndFrame : Prop :=
  ∀ (i : Instr) (s t : State), exec i s = .next t →
    (i = .leadRepeat ∨ FrameRow i → t.deliveries = s.deliveries ++ [t.msg]) ∧
    (i ≠ .leadRepeat → ¬ FrameRow i → t.deliveries = s.deliveries)

/-- R53: the decoder never writes a nonzero value to the buffer. -/
def Obligations.InstructionsWriteOnlyZeros : Prop :=
  ∀ (i : Instr) (s t : State), s.Inv → exec i s = .next t →
    ∀ a, t.buf.read a = s.buf.read a ∨ t.buf.read a = 0#32

/-- R173: the consumption count of each transition; R22: only consumption, `INIT` and `WRREG` move the cursor. -/
def Obligations.OnlyConsumptionMovesTheCursor : Prop :=
  ∀ (i : Instr) (s t : State), s.Inv → exec i s = .next t →
    (i = .ret → t.currentIndex = s.currentIndex ∧ t.buf = s.buf) ∧
    (i = .leadSkip → Consumes 1 s t) ∧
    (i = .leadRepeat ∨ FrameRow i → Consumes 4 s t) ∧
    (∀ p, edge i = some p → i ≠ .leadSkip → i ≠ .leadRepeat → ¬ FrameRow i → Consumes 2 s t) ∧
    (i = .decode ∨ (∃ r, i = .rdreg r) ∨ (∃ r d, i = .wrreg r d ∧ r ≠ .currentIndex) → t.currentIndex = s.currentIndex)

/-- R24, R175, R176: who writes the block's only flag. -/
def Obligations.ClearLastHasFourWriters : Prop :=
  ∀ (i : Instr) (s t : State), exec i s = .next t → t.clearLast ≠ s.clearLast →
    (FrameRow i ∧ s.snapshot.t3 = 0#32 ∧ t.clearLast = true) ∨
    ((i = .decode ∨ i = .init) ∧ t.clearLast = false) ∨
    (∃ d, i = .wrreg .clearLast d)

/-- R130 (a), R104 (a). -/
def Obligations.NextStateTable : Prop :=
  ∀ (i : Instr) (s t : State), exec i s = .next t →
    (∀ p q, edge i = some (p, q) → s.state = p ∧ t.state = q) ∧
    (i = .ret ∨ i = .decode ∨ (∃ r, i = .rdreg r) → t.state = s.state)

/-- R32, second part, with the exception of R195 (log 17). -/
def Obligations.LeadInHasPulseNumberZero : Prop :=
  ∀ (i : Instr) (s t : State), (∀ d, i ≠ .wrreg .pulseNumber d) → (∀ d, i ≠ .wrreg .state d) →
    (s.state = .leadIn → s.pulseNumber = 0#3) → exec i s = .next t →
      (t.state = .leadIn → t.pulseNumber = 0#3)

/-- R83: the packed payload. -/
def Obligations.DeliverPayloadLayout : Prop :=
  ∀ (b : RepeatBits) (m : Message),
    (m.pack b).extractLsb' 0 8 = m.address ∧ (m.pack b).extractLsb' 8 8 = m.addressInv ∧
    (m.pack b).extractLsb' 16 8 = m.command ∧ (m.pack b).extractLsb' 24 8 = m.commandInv ∧
    (m.pack b).extractLsb' 32 8 = m.addressError ∧ (m.pack b).extractLsb' 40 8 = m.addressInvError ∧
    (m.pack b).extractLsb' 48 8 = m.commandError ∧ (m.pack b).extractLsb' 56 8 = m.commandInvError ∧
    (m.pack b).extractLsb' 64 b.width = m.repeatCount.setWidth b.width

/-- R6, R212, R222; that a pair that shares is refused as shared even where a configuration is illegal is the model's
choice (log 27). -/
def Obligations.BuildRefusesIllegalConfigurations : Prop :=
  (∀ r : BuildRequest,
    ((∃ c, build r = .ok c) ↔
      r.period < 2 ^ 32 ∧ 1 ≤ r.clockSpeed ∧ r.clockSpeed < 2 ^ 32 ∧ 1 ≤ r.bufferSize ∧ r.bufferSize ≤ 2 ^ 32 ∧
        (r.repeatBits = 8 ∨ r.repeatBits = 16 ∨ r.repeatBits = 32)) ∧
    (∀ c, build r = .ok c → c.legal ∧ c.period.toNat = r.period ∧ c.clockSpeed.toNat = r.clockSpeed ∧
      c.bufferSize = r.bufferSize ∧ c.repeatBits.width = r.repeatBits) ∧
    (∀ e, build r = .error e → e = .illegalConfiguration)) ∧
  (∀ r q : BuildRequest, r.bufferId = q.bufferId ∨ r.messageId = q.messageId →
    buildAll [r, q] = .error .sharedInstance)

/-- R179's last sentence and R193: the idempotence of insufficient data. -/
def Obligations.InsufficientDataIsIdempotent : Prop :=
  ∀ (s : State) (d : Word) (rest : Schedule), s.Inv → s.Unmarked → s.phase = .idle → s.initialised = true → s.clearLast = false →
    4 ≤ s.cfg.bufferSize → s.inputs.next = some (.command 0x02#8 d, rest) → rest.next = none →
    (∀ a, a ≠ s.currentIndex % s.cfg.bufferSize → a ≠ (s.currentIndex + 1) % s.cfg.bufferSize →
      s.buf.read a = 0#32) →
      Sys2Proof.core.run 2 s = .next { s with inputs := rest }

/-- R178, the termination law: nothing is written during the call, since no outside action is left; P counts the listed
slots, which the canonical form makes the nonzero ones. -/
def Obligations.QuietCallTerminates : Prop :=
  ∀ s : State, s.Inv → s.Unmarked → s.phase = .busy → s.inputs.next = none →
    ∃ k ≤ 2 * s.nonzeroSlots,
      (∀ j ≤ k, StaysBusy s j) ∧ ∃ t, Sys2Proof.core.run (k + 1) s = .next t ∧ t.phase = .idle

/-- R130 (b), (c), (d) and the full-frame property (95_test_vectors.md E5), for every configuration with N at least 68 and
every frame whose 68 edges are all in the buffer and whose pulses all classify, during a call in which no outside action
is left, so that no capture lands (log 5). -/
def Obligations.FullFrameRoundTrip : Prop :=
  ∀ (s : State) (ts : Nat → Word) (w : BitVec 32),
    s.Inv → s.Unmarked → s.phase = .busy → s.inputs.next = none → s.state = .leadIn → 68 ≤ s.cfg.bufferSize →
    s.HoldsEdges s.currentIndex 68 ts →
    8750 < edgeMark s.cfg ts 0 → edgeMark s.cfg ts 0 < 9250 →
    4250 < edgeMark s.cfg ts 1 → edgeMark s.cfg ts 1 < 4750 →
    (∀ j < 32, 500 < edgeMark s.cfg ts (2 * j + 2) ∧ edgeMark s.cfg ts (2 * j + 2) < 600 ∧
      (if w.getLsbD j then 1500 < edgeMark s.cfg ts (2 * j + 3) ∧ edgeMark s.cfg ts (2 * j + 3) < 1800
       else 500 < edgeMark s.cfg ts (2 * j + 3) ∧ edgeMark s.cfg ts (2 * j + 3) < 600)) →
      ∃ t, Sys2Proof.core.run 33 s = .next t ∧ Consumes 68 s t ∧
        t = { s with
          pulseNumber := 0#3
          msg :=
            { address := w.extractLsb' 0 8, addressInv := w.extractLsb' 8 8
              command := w.extractLsb' 16 8, commandInv := w.extractLsb' 24 8
              addressError := 0#8, addressInvError := 0#8, commandError := 0#8, commandInvError := 0#8
              repeatCount := 0#32 }
          deliveries := s.deliveries ++ [t.msg], currentIndex := t.currentIndex, buf := t.buf }

/-- R58 with R10: the order of the outside actions; that it is plain data, and how an endless run is written, are the
model's choices (log 5, 26). -/
def Obligations.ScheduleGivesActionsInOrder : Prop :=
  ∀ (l : List Input) (o : Onward) (e : Input) (n k : Nat),
    (Schedule.mk (e :: l) o).next = some (e, Schedule.mk l o) ∧
    (Schedule.mk [] .quiet).next = none ∧
    (Schedule.mk [] (.cycle [])).next = none ∧
    (Schedule.mk [] (.cycle (e :: l))).next = some (e, Schedule.mk [] (.cycle (l ++ [e]))) ∧
    (Schedule.mk [] (.free n k)).next = some (Config.freeInput n k, Schedule.mk [] (.free n (k + 1)))

/-- R178's last part, R254, 93_implementation_defined.md I15: while data keeps arriving a call need not end, whatever the
configuration and even if every capture is nonzero, lands on an existing slot and overwrites nothing. -/
def Obligations.CallNeedNotEnd : Prop :=
  ∀ c : Config, c.legal → 4 ≤ c.bufferSize →
    ∃ s : State, s.cfg = c ∧ s.Inv ∧ s.Unmarked ∧ s.phase = .busy ∧
      ∀ k, ∃ t : State, Sys2Proof.core.run k s = .next t ∧ t.phase = .busy ∧
        ∀ i v rest, t.inputs.next = some (.capture i v, rest) → t.ContractWrite i v

/-- R254's fairness premise with R178's count: when the outside actions are finitely many and name existing slots, every
call ends, within 2P steps and three more for each action, plus the `RETURN`. -/
def Obligations.CallEndsOnceTheProducerStops : Prop :=
  ∀ s : State, s.Inv → s.Unmarked → s.phase = .busy → s.inputs.onward = .quiet →
    (∀ e ∈ s.inputs.listed, e.wf s.cfg.bufferSize = true) →
      ∃ k ≤ 2 * s.nonzeroSlots + 3 * s.inputs.listed.length + 1,
        ∃ t : State, Sys2Proof.core.run k s = .next t ∧ t.phase = .idle

/-- R6, R241: a machine takes its configuration as its argument, and every legal request builds one. Its reset state is the
state that `INIT` leaves under that configuration (R240, R33); that `reset` is that state and not the one at power-on
(R34) is the model's reading (log 3, DEDUCED), as are the field that carries the configuration (log 1) and the empty
history and schedule (log 2). -/
def Obligations.MachineTakesItsConfiguration : Prop :=
  (∀ (c d : Config) (s t : State),
    ((machine c).step { s with cfg := d } = (machine c).step s) ∧
    ((machine c).step s = .next t → t.cfg = c) ∧
    ((machine s.cfg).step s = Sys2Proof.core.step s)) ∧
  ∀ (r : BuildRequest) (c : Config), build r = .ok c →
    buildMachine r = .ok (machine c) ∧ (State.resetWith c).Inv ∧ (State.resetWith c).Unmarked ∧
      State.resetWith c = { State.reset with cfg := c } ∧ (machine c).reset = State.resetWith c ∧ (State.resetWith c).cfg = c
end

