-- ==== Sys2Proof/Laws/Buffer.lean ====
section
/-! SUPPORT. Laws of the buffer memory: read after write, the canonical form, zeroing a run of slots. -/

namespace Sys2Proof.Machine

/-! ## The canonical form -/

@[simp] theorem Buffer.read_nil (i : Nat) : Buffer.read [] i = 0#32 := rfl

@[simp] theorem Buffer.wf_nil (n : Nat) : Buffer.wf n [] = true := rfl

theorem Buffer.wfFrom_cons {n lo a : Nat} {v : Word} {m : Buffer} :
    Buffer.wfFrom n lo ((a, v) :: m) = true ↔
      lo ≤ a ∧ a < n ∧ v ≠ 0#32 ∧ Buffer.wfFrom n (a + 1) m = true := by
  simp [Buffer.wfFrom, and_assoc]

theorem Buffer.wfFrom_mono {n lo lo' : Nat} {m : Buffer} (h : Buffer.wfFrom n lo m = true) (hle : lo' ≤ lo) :
    Buffer.wfFrom n lo' m = true := by
  cases m with
  | nil => rfl
  | cons p m =>
    rw [Buffer.wfFrom_cons] at h ⊢
    exact ⟨hle.trans h.1, h.2⟩

/-- Slots below the first listed one read 0. -/
theorem Buffer.read_of_lt {n lo i : Nat} {m : Buffer} (h : Buffer.wfFrom n lo m = true) (hi : i < lo) :
    m.read i = 0#32 := by
  induction m generalizing lo with
  | nil => rfl
  | cons p m ih =>
    obtain ⟨h1, -, -, h4⟩ := Buffer.wfFrom_cons.mp h
    have : p.1 ≠ i := by omega
    simp only [Buffer.read, this, if_false]
    exact ih h4 (by omega)

/-- Slots of N or more read 0. -/
theorem Buffer.read_of_ge {n lo i : Nat} {m : Buffer} (h : Buffer.wfFrom n lo m = true) (hi : n ≤ i) :
    m.read i = 0#32 := by
  induction m generalizing lo with
  | nil => rfl
  | cons p m ih =>
    obtain ⟨-, h2, -, h4⟩ := Buffer.wfFrom_cons.mp h
    have : p.1 ≠ i := by omega
    simp only [Buffer.read, this, if_false]
    exact ih h4

/-! ## Read after write -/

/-- A write leaves every other slot alone (20_memory.md R55). -/
theorem Buffer.read_write_of_ne (m : Buffer) {i a : Nat} (v : Word) (h : a ≠ i) :
    (m.write i v).read a = m.read a := by
  induction m with
  | nil =>
    simp only [Buffer.write]
    split <;> simp [Buffer.read, h.symm]
  | cons p m ih =>
    obtain ⟨b, w⟩ := p
    simp only [Buffer.write]
    split_ifs with h1 h2 h3 h4
    · rfl
    · simp [Buffer.read, h.symm]
    · subst h3; simp [Buffer.read, h.symm]
    · subst h3; simp [Buffer.read, h.symm]
    · simp [Buffer.read, ih]

theorem Buffer.read_write_same_from {n lo : Nat} {m : Buffer} (h : Buffer.wfFrom n lo m = true) (i : Nat) (v : Word) :
    (m.write i v).read i = v := by
  induction m generalizing lo with
  | nil =>
    simp only [Buffer.write]
    split <;> simp_all [Buffer.read]
  | cons p m ih =>
    obtain ⟨b, w⟩ := p
    obtain ⟨-, -, -, h4⟩ := Buffer.wfFrom_cons.mp h
    simp only [Buffer.write]
    split_ifs with h1 h2 h3 h5
    · have hb : b ≠ i := by omega
      simp only [Buffer.read, hb, if_false, h2]
      exact Buffer.read_of_lt h4 (by omega)
    · simp [Buffer.read]
    · rw [h5]; exact Buffer.read_of_lt h4 (by omega)
    · simp [Buffer.read]
    · have hb : b ≠ i := by omega
      simp only [Buffer.read, hb, if_false]
      exact ih h4

/-- A read returns the last write (20_memory.md R58). -/
theorem Buffer.read_write_same {n : Nat} {m : Buffer} (h : m.wf n = true) (i : Nat) (v : Word) :
    (m.write i v).read i = v :=
  Buffer.read_write_same_from h i v

/-! ## Every operation keeps the canonical form -/

theorem Buffer.wfFrom_write {n lo i : Nat} {m : Buffer} (h : Buffer.wfFrom n lo m = true) (hlo : lo ≤ i) (hi : i < n)
    (v : Word) : Buffer.wfFrom n lo (m.write i v) = true := by
  induction m generalizing lo with
  | nil =>
    simp only [Buffer.write]
    split
    · rfl
    · exact Buffer.wfFrom_cons.mpr ⟨hlo, hi, by assumption, rfl⟩
  | cons p m ih =>
    obtain ⟨b, w⟩ := p
    obtain ⟨h1, h2, h3, h4⟩ := Buffer.wfFrom_cons.mp h
    simp only [Buffer.write]
    split_ifs with c1 c2 c3 c4
    · exact h
    · exact Buffer.wfFrom_cons.mpr ⟨hlo, hi, c2, Buffer.wfFrom_cons.mpr ⟨by omega, h2, h3, h4⟩⟩
    · exact Buffer.wfFrom_mono h4 (by omega)
    · exact Buffer.wfFrom_cons.mpr ⟨hlo, hi, c4, c3 ▸ h4⟩
    · exact Buffer.wfFrom_cons.mpr ⟨h1, h2, h3, ih h4 (by omega)⟩

theorem Buffer.wf_write {n i : Nat} {m : Buffer} (h : m.wf n = true) (hi : i < n) (v : Word) :
    (m.write i v).wf n = true :=
  Buffer.wfFrom_write h (Nat.zero_le i) hi v

theorem Buffer.wf_zeroRun {n : Nat} {m : Buffer} (h : m.wf n = true) (hn : 0 < n) (c k : Nat) :
    (m.zeroRun n c k).wf n = true := by
  induction k with
  | zero => exact h
  | succ k ih => exact Buffer.wf_write ih (Nat.mod_lt _ hn) _

/-! ## Zeroing a run of slots -/

/-- The zeroed slots read 0 (43_buffer.md R174). -/
theorem Buffer.read_zeroRun_of_lt {n : Nat} {m : Buffer} (h : m.wf n = true) (hn : 0 < n) (c : Nat) {j k : Nat}
    (hj : j < k) : (m.zeroRun n c k).read ((c + j) % n) = 0#32 := by
  induction k with
  | zero => omega
  | succ k ih =>
    simp only [Buffer.zeroRun]
    by_cases e : (c + j) % n = (c + k) % n
    · rw [e]; exact Buffer.read_write_same (Buffer.wf_zeroRun h hn c k) _ _
    · rw [Buffer.read_write_of_ne _ _ e]
      exact ih (by rcases Nat.lt_succ_iff_lt_or_eq.mp hj with h' | h'; exact h'; subst h'; exact absurd rfl e)

/-- Every other slot is left alone. -/
theorem Buffer.read_zeroRun_of_ne (m : Buffer) (n c : Nat) {k a : Nat} (h : ∀ j < k, a ≠ (c + j) % n) :
    (m.zeroRun n c k).read a = m.read a := by
  induction k with
  | zero => rfl
  | succ k ih =>
    simp only [Buffer.zeroRun]
    rw [Buffer.read_write_of_ne _ _ (h k (Nat.lt_succ_self k))]
    exact ih fun j hj => h j (by omega)

/-! ## How many slots are listed -/

/-- Writing 0 lists no further slot. -/
theorem Buffer.length_write_zero_le (m : Buffer) (i : Nat) : (m.write i 0#32).length ≤ m.length := by
  induction m with
  | nil => simp [Buffer.write]
  | cons p m ih =>
    obtain ⟨b, w⟩ := p
    simp only [Buffer.write]
    split_ifs
    all_goals first | simp; done | (simp only [List.length_cons]; omega)

/-- Zeroing a nonzero slot lists one slot less. -/
theorem Buffer.length_write_zero_of_read_ne (m : Buffer) {i : Nat} {n lo : Nat} (hm : Buffer.wfFrom n lo m = true)
    (h : m.read i ≠ 0#32) : (m.write i 0#32).length + 1 = m.length := by
  induction m generalizing lo with
  | nil => exact absurd rfl h
  | cons p m ih =>
    obtain ⟨b, w⟩ := p
    obtain ⟨-, -, -, h4⟩ := Buffer.wfFrom_cons.mp hm
    by_cases hb : b = i
    · subst hb
      simp [Buffer.write]
    · have hr : Buffer.read m i ≠ 0#32 := by simpa [Buffer.read, hb] using h
      have hge : ¬ i < b := fun hlt => hr (Buffer.read_of_lt h4 (by omega))
      have hne : i ≠ b := fun e => hb e.symm
      simp only [Buffer.write, hge, hne, if_false, List.length_cons]
      have := ih h4 hr
      omega

theorem Buffer.length_zeroRun_le (m : Buffer) (n c k : Nat) : (m.zeroRun n c k).length ≤ m.length := by
  induction k with
  | zero => exact le_rfl
  | succ k ih => exact (Buffer.length_write_zero_le _ _).trans ih

/-- Equal reads of two canonical buffers are equal buffers. -/
theorem Buffer.ext_of_read {n lo : Nat} {m m' : Buffer} (h : Buffer.wfFrom n lo m = true)
    (h' : Buffer.wfFrom n lo m' = true) (e : ∀ i, m.read i = m'.read i) : m = m' := by
  induction m generalizing lo m' with
  | nil =>
    cases m' with
    | nil => rfl
    | cons p m' =>
      obtain ⟨-, -, h3, -⟩ := Buffer.wfFrom_cons.mp h'
      exact absurd (e p.1).symm (by simpa [Buffer.read] using h3)
  | cons p m ih =>
    obtain ⟨b, w⟩ := p
    obtain ⟨h1, h2, h3, h4⟩ := Buffer.wfFrom_cons.mp h
    cases m' with
    | nil => exact absurd (e b) (by simpa [Buffer.read] using h3)
    | cons q m' =>
      obtain ⟨b', w'⟩ := q
      obtain ⟨k1, k2, k3, k4⟩ := Buffer.wfFrom_cons.mp h'
      have hb : b = b' := by
        rcases Nat.lt_trichotomy b b' with hlt | heq | hgt
        · have := e b
          rw [Buffer.read_of_lt (m := (b', w') :: m') (Buffer.wfFrom_cons.mpr ⟨le_rfl, k2, k3, k4⟩) hlt] at this
          exact absurd this (by simpa [Buffer.read] using h3)
        · exact heq
        · have := e b'
          rw [Buffer.read_of_lt (m := (b, w) :: m) (Buffer.wfFrom_cons.mpr ⟨le_rfl, h2, h3, h4⟩) hgt] at this
          exact absurd this.symm (by simpa [Buffer.read] using k3)
      subst hb
      have hw : w = w' := by simpa [Buffer.read] using e b
      subst hw
      have : m = m' := ih h4 k4 fun i => by
        by_cases hi : b = i
        · subst hi
          rw [Buffer.read_of_lt h4 (by omega), Buffer.read_of_lt k4 (by omega)]
        · simpa [Buffer.read, hi] using e i
      rw [this]

end Sys2Proof.Machine
end

