-- ==== Sys2Proof/Laws/State.lean ====
section
/-! SUPPORT. One lemma per field per state update. -/

namespace Sys2Proof.Machine

/-! ## `consume` -/

@[simp] theorem State.consume_state (s : State) (k : Nat) : (s.consume k).state = s.state := rfl
@[simp] theorem State.consume_currentIndex (s : State) (k : Nat) : (s.consume k).currentIndex = (s.currentIndex + k) % s.cfg.bufferSize := rfl
@[simp] theorem State.consume_pulseNumber (s : State) (k : Nat) : (s.consume k).pulseNumber = s.pulseNumber := rfl
@[simp] theorem State.consume_clearLast (s : State) (k : Nat) : (s.consume k).clearLast = s.clearLast := rfl
@[simp] theorem State.consume_phase (s : State) (k : Nat) : (s.consume k).phase = s.phase := rfl
@[simp] theorem State.consume_initialised (s : State) (k : Nat) : (s.consume k).initialised = s.initialised := rfl
@[simp] theorem State.consume_msg (s : State) (k : Nat) : (s.consume k).msg = s.msg := rfl
@[simp] theorem State.consume_buf (s : State) (k : Nat) : (s.consume k).buf = s.buf.zeroRun s.cfg.bufferSize s.currentIndex k := rfl
@[simp] theorem State.consume_cfg (s : State) (k : Nat) : (s.consume k).cfg = s.cfg := rfl
@[simp] theorem State.consume_deliveries (s : State) (k : Nat) : (s.consume k).deliveries = s.deliveries := rfl
@[simp] theorem State.consume_responses (s : State) (k : Nat) : (s.consume k).responses = s.responses := rfl
@[simp] theorem State.consume_peeked (s : State) (k : Nat) : (s.consume k).peeked = s.peeked := rfl
@[simp] theorem State.consume_inputs (s : State) (k : Nat) : (s.consume k).inputs = s.inputs := rfl
@[simp] theorem State.consume_faultMark (s : State) (k : Nat) : (s.consume k).faultMark = s.faultMark := rfl
@[simp] theorem State.consume_refusalMark (s : State) (k : Nat) : (s.consume k).refusalMark = s.refusalMark := rfl

/-! ## `orData` -/

@[simp] theorem State.orData_state (s : State) (f : DataField) (n : Nat) : (s.orData f n).state = s.state := rfl
@[simp] theorem State.orData_currentIndex (s : State) (f : DataField) (n : Nat) : (s.orData f n).currentIndex = s.currentIndex := rfl
@[simp] theorem State.orData_pulseNumber (s : State) (f : DataField) (n : Nat) : (s.orData f n).pulseNumber = s.pulseNumber := rfl
@[simp] theorem State.orData_clearLast (s : State) (f : DataField) (n : Nat) : (s.orData f n).clearLast = s.clearLast := rfl
@[simp] theorem State.orData_phase (s : State) (f : DataField) (n : Nat) : (s.orData f n).phase = s.phase := rfl
@[simp] theorem State.orData_initialised (s : State) (f : DataField) (n : Nat) : (s.orData f n).initialised = s.initialised := rfl
@[simp] theorem State.orData_msg (s : State) (f : DataField) (n : Nat) : (s.orData f n).msg = s.msg.setData f (s.msg.data f ||| bitAt n) := rfl
@[simp] theorem State.orData_buf (s : State) (f : DataField) (n : Nat) : (s.orData f n).buf = s.buf := rfl
@[simp] theorem State.orData_cfg (s : State) (f : DataField) (n : Nat) : (s.orData f n).cfg = s.cfg := rfl
@[simp] theorem State.orData_deliveries (s : State) (f : DataField) (n : Nat) : (s.orData f n).deliveries = s.deliveries := rfl
@[simp] theorem State.orData_responses (s : State) (f : DataField) (n : Nat) : (s.orData f n).responses = s.responses := rfl
@[simp] theorem State.orData_peeked (s : State) (f : DataField) (n : Nat) : (s.orData f n).peeked = s.peeked := rfl
@[simp] theorem State.orData_inputs (s : State) (f : DataField) (n : Nat) : (s.orData f n).inputs = s.inputs := rfl
@[simp] theorem State.orData_faultMark (s : State) (f : DataField) (n : Nat) : (s.orData f n).faultMark = s.faultMark := rfl
@[simp] theorem State.orData_refusalMark (s : State) (f : DataField) (n : Nat) : (s.orData f n).refusalMark = s.refusalMark := rfl

/-! ## `orError` -/

@[simp] theorem State.orError_state (s : State) (f : DataField) (n : Nat) : (s.orError f n).state = s.state := rfl
@[simp] theorem State.orError_currentIndex (s : State) (f : DataField) (n : Nat) : (s.orError f n).currentIndex = s.currentIndex := rfl
@[simp] theorem State.orError_pulseNumber (s : State) (f : DataField) (n : Nat) : (s.orError f n).pulseNumber = s.pulseNumber := rfl
@[simp] theorem State.orError_clearLast (s : State) (f : DataField) (n : Nat) : (s.orError f n).clearLast = s.clearLast := rfl
@[simp] theorem State.orError_phase (s : State) (f : DataField) (n : Nat) : (s.orError f n).phase = s.phase := rfl
@[simp] theorem State.orError_initialised (s : State) (f : DataField) (n : Nat) : (s.orError f n).initialised = s.initialised := rfl
@[simp] theorem State.orError_msg (s : State) (f : DataField) (n : Nat) : (s.orError f n).msg = s.msg.setError f (s.msg.error f ||| bitAt n) := rfl
@[simp] theorem State.orError_buf (s : State) (f : DataField) (n : Nat) : (s.orError f n).buf = s.buf := rfl
@[simp] theorem State.orError_cfg (s : State) (f : DataField) (n : Nat) : (s.orError f n).cfg = s.cfg := rfl
@[simp] theorem State.orError_deliveries (s : State) (f : DataField) (n : Nat) : (s.orError f n).deliveries = s.deliveries := rfl
@[simp] theorem State.orError_responses (s : State) (f : DataField) (n : Nat) : (s.orError f n).responses = s.responses := rfl
@[simp] theorem State.orError_peeked (s : State) (f : DataField) (n : Nat) : (s.orError f n).peeked = s.peeked := rfl
@[simp] theorem State.orError_inputs (s : State) (f : DataField) (n : Nat) : (s.orError f n).inputs = s.inputs := rfl
@[simp] theorem State.orError_faultMark (s : State) (f : DataField) (n : Nat) : (s.orError f n).faultMark = s.faultMark := rfl
@[simp] theorem State.orError_refusalMark (s : State) (f : DataField) (n : Nat) : (s.orError f n).refusalMark = s.refusalMark := rfl

/-! ## `clearMessage` -/

@[simp] theorem State.clearMessage_state (s : State) : (s.clearMessage).state = s.state := rfl
@[simp] theorem State.clearMessage_currentIndex (s : State) : (s.clearMessage).currentIndex = s.currentIndex := rfl
@[simp] theorem State.clearMessage_pulseNumber (s : State) : (s.clearMessage).pulseNumber = s.pulseNumber := rfl
@[simp] theorem State.clearMessage_clearLast (s : State) : (s.clearMessage).clearLast = s.clearLast := rfl
@[simp] theorem State.clearMessage_phase (s : State) : (s.clearMessage).phase = s.phase := rfl
@[simp] theorem State.clearMessage_initialised (s : State) : (s.clearMessage).initialised = s.initialised := rfl
@[simp] theorem State.clearMessage_msg (s : State) : (s.clearMessage).msg = Message.zero := rfl
@[simp] theorem State.clearMessage_buf (s : State) : (s.clearMessage).buf = s.buf := rfl
@[simp] theorem State.clearMessage_cfg (s : State) : (s.clearMessage).cfg = s.cfg := rfl
@[simp] theorem State.clearMessage_deliveries (s : State) : (s.clearMessage).deliveries = s.deliveries := rfl
@[simp] theorem State.clearMessage_responses (s : State) : (s.clearMessage).responses = s.responses := rfl
@[simp] theorem State.clearMessage_peeked (s : State) : (s.clearMessage).peeked = s.peeked := rfl
@[simp] theorem State.clearMessage_inputs (s : State) : (s.clearMessage).inputs = s.inputs := rfl
@[simp] theorem State.clearMessage_faultMark (s : State) : (s.clearMessage).faultMark = s.faultMark := rfl
@[simp] theorem State.clearMessage_refusalMark (s : State) : (s.clearMessage).refusalMark = s.refusalMark := rfl

/-! ## `countRepeat` -/

@[simp] theorem State.countRepeat_state (s : State) : (s.countRepeat).state = s.state := rfl
@[simp] theorem State.countRepeat_currentIndex (s : State) : (s.countRepeat).currentIndex = s.currentIndex := rfl
@[simp] theorem State.countRepeat_pulseNumber (s : State) : (s.countRepeat).pulseNumber = s.pulseNumber := rfl
@[simp] theorem State.countRepeat_clearLast (s : State) : (s.countRepeat).clearLast = s.clearLast := rfl
@[simp] theorem State.countRepeat_phase (s : State) : (s.countRepeat).phase = s.phase := rfl
@[simp] theorem State.countRepeat_initialised (s : State) : (s.countRepeat).initialised = s.initialised := rfl
@[simp] theorem State.countRepeat_buf (s : State) : (s.countRepeat).buf = s.buf := rfl
@[simp] theorem State.countRepeat_cfg (s : State) : (s.countRepeat).cfg = s.cfg := rfl
@[simp] theorem State.countRepeat_deliveries (s : State) : (s.countRepeat).deliveries = s.deliveries := rfl
@[simp] theorem State.countRepeat_responses (s : State) : (s.countRepeat).responses = s.responses := rfl
@[simp] theorem State.countRepeat_peeked (s : State) : (s.countRepeat).peeked = s.peeked := rfl
@[simp] theorem State.countRepeat_inputs (s : State) : (s.countRepeat).inputs = s.inputs := rfl
@[simp] theorem State.countRepeat_faultMark (s : State) : (s.countRepeat).faultMark = s.faultMark := rfl
@[simp] theorem State.countRepeat_refusalMark (s : State) : (s.countRepeat).refusalMark = s.refusalMark := rfl

/-! ## `deliver` -/

@[simp] theorem State.deliver_state (s : State) : (s.deliver).state = s.state := rfl
@[simp] theorem State.deliver_currentIndex (s : State) : (s.deliver).currentIndex = s.currentIndex := rfl
@[simp] theorem State.deliver_pulseNumber (s : State) : (s.deliver).pulseNumber = s.pulseNumber := rfl
@[simp] theorem State.deliver_clearLast (s : State) : (s.deliver).clearLast = s.clearLast := rfl
@[simp] theorem State.deliver_phase (s : State) : (s.deliver).phase = s.phase := rfl
@[simp] theorem State.deliver_initialised (s : State) : (s.deliver).initialised = s.initialised := rfl
@[simp] theorem State.deliver_msg (s : State) : (s.deliver).msg = s.msg := rfl
@[simp] theorem State.deliver_buf (s : State) : (s.deliver).buf = s.buf := rfl
@[simp] theorem State.deliver_cfg (s : State) : (s.deliver).cfg = s.cfg := rfl
@[simp] theorem State.deliver_deliveries (s : State) : (s.deliver).deliveries = s.deliveries ++ [s.msg] := rfl
@[simp] theorem State.deliver_responses (s : State) : (s.deliver).responses = s.responses := rfl
@[simp] theorem State.deliver_peeked (s : State) : (s.deliver).peeked = s.peeked := rfl
@[simp] theorem State.deliver_inputs (s : State) : (s.deliver).inputs = s.inputs := rfl
@[simp] theorem State.deliver_faultMark (s : State) : (s.deliver).faultMark = s.faultMark := rfl
@[simp] theorem State.deliver_refusalMark (s : State) : (s.deliver).refusalMark = s.refusalMark := rfl

/-! ## `advancePulse` -/

@[simp] theorem State.advancePulse_state (s : State) : (s.advancePulse).state = s.state := rfl
@[simp] theorem State.advancePulse_currentIndex (s : State) : (s.advancePulse).currentIndex = s.currentIndex := rfl
@[simp] theorem State.advancePulse_pulseNumber (s : State) : (s.advancePulse).pulseNumber = s.pulseNumber + 1#3 := rfl
@[simp] theorem State.advancePulse_clearLast (s : State) : (s.advancePulse).clearLast = s.clearLast := rfl
@[simp] theorem State.advancePulse_phase (s : State) : (s.advancePulse).phase = s.phase := rfl
@[simp] theorem State.advancePulse_initialised (s : State) : (s.advancePulse).initialised = s.initialised := rfl
@[simp] theorem State.advancePulse_msg (s : State) : (s.advancePulse).msg = s.msg := rfl
@[simp] theorem State.advancePulse_buf (s : State) : (s.advancePulse).buf = s.buf := rfl
@[simp] theorem State.advancePulse_cfg (s : State) : (s.advancePulse).cfg = s.cfg := rfl
@[simp] theorem State.advancePulse_deliveries (s : State) : (s.advancePulse).deliveries = s.deliveries := rfl
@[simp] theorem State.advancePulse_responses (s : State) : (s.advancePulse).responses = s.responses := rfl
@[simp] theorem State.advancePulse_peeked (s : State) : (s.advancePulse).peeked = s.peeked := rfl
@[simp] theorem State.advancePulse_inputs (s : State) : (s.advancePulse).inputs = s.inputs := rfl
@[simp] theorem State.advancePulse_faultMark (s : State) : (s.advancePulse).faultMark = s.faultMark := rfl
@[simp] theorem State.advancePulse_refusalMark (s : State) : (s.advancePulse).refusalMark = s.refusalMark := rfl

/-! ## `completeField` -/

@[simp] theorem State.completeField_state (s : State) (q : ProtoState) : (s.completeField q).state = q := rfl
@[simp] theorem State.completeField_currentIndex (s : State) (q : ProtoState) : (s.completeField q).currentIndex = s.currentIndex := rfl
@[simp] theorem State.completeField_pulseNumber (s : State) (q : ProtoState) : (s.completeField q).pulseNumber = 0#3 := rfl
@[simp] theorem State.completeField_clearLast (s : State) (q : ProtoState) : (s.completeField q).clearLast = s.clearLast := rfl
@[simp] theorem State.completeField_phase (s : State) (q : ProtoState) : (s.completeField q).phase = s.phase := rfl
@[simp] theorem State.completeField_initialised (s : State) (q : ProtoState) : (s.completeField q).initialised = s.initialised := rfl
@[simp] theorem State.completeField_msg (s : State) (q : ProtoState) : (s.completeField q).msg = s.msg := rfl
@[simp] theorem State.completeField_buf (s : State) (q : ProtoState) : (s.completeField q).buf = s.buf := rfl
@[simp] theorem State.completeField_cfg (s : State) (q : ProtoState) : (s.completeField q).cfg = s.cfg := rfl
@[simp] theorem State.completeField_deliveries (s : State) (q : ProtoState) : (s.completeField q).deliveries = s.deliveries := rfl
@[simp] theorem State.completeField_responses (s : State) (q : ProtoState) : (s.completeField q).responses = s.responses := rfl
@[simp] theorem State.completeField_peeked (s : State) (q : ProtoState) : (s.completeField q).peeked = s.peeked := rfl
@[simp] theorem State.completeField_inputs (s : State) (q : ProtoState) : (s.completeField q).inputs = s.inputs := rfl
@[simp] theorem State.completeField_faultMark (s : State) (q : ProtoState) : (s.completeField q).faultMark = s.faultMark := rfl
@[simp] theorem State.completeField_refusalMark (s : State) (q : ProtoState) : (s.completeField q).refusalMark = s.refusalMark := rfl

/-! ## `respond` -/

@[simp] theorem State.respond_state (s : State) (w : Word) : (s.respond w).state = s.state := rfl
@[simp] theorem State.respond_currentIndex (s : State) (w : Word) : (s.respond w).currentIndex = s.currentIndex := rfl
@[simp] theorem State.respond_pulseNumber (s : State) (w : Word) : (s.respond w).pulseNumber = s.pulseNumber := rfl
@[simp] theorem State.respond_clearLast (s : State) (w : Word) : (s.respond w).clearLast = s.clearLast := rfl
@[simp] theorem State.respond_phase (s : State) (w : Word) : (s.respond w).phase = s.phase := rfl
@[simp] theorem State.respond_initialised (s : State) (w : Word) : (s.respond w).initialised = s.initialised := rfl
@[simp] theorem State.respond_msg (s : State) (w : Word) : (s.respond w).msg = s.msg := rfl
@[simp] theorem State.respond_buf (s : State) (w : Word) : (s.respond w).buf = s.buf := rfl
@[simp] theorem State.respond_cfg (s : State) (w : Word) : (s.respond w).cfg = s.cfg := rfl
@[simp] theorem State.respond_deliveries (s : State) (w : Word) : (s.respond w).deliveries = s.deliveries := rfl
@[simp] theorem State.respond_responses (s : State) (w : Word) : (s.respond w).responses = s.responses ++ [w] := rfl
@[simp] theorem State.respond_peeked (s : State) (w : Word) : (s.respond w).peeked = s.peeked := rfl
@[simp] theorem State.respond_inputs (s : State) (w : Word) : (s.respond w).inputs = s.inputs := rfl
@[simp] theorem State.respond_faultMark (s : State) (w : Word) : (s.respond w).faultMark = s.faultMark := rfl
@[simp] theorem State.respond_refusalMark (s : State) (w : Word) : (s.respond w).refusalMark = s.refusalMark := rfl

/-! ## `requestClear` -/

@[simp] theorem State.requestClear_state (s : State) (v : Word) : (s.requestClear v).state = s.state := rfl
@[simp] theorem State.requestClear_currentIndex (s : State) (v : Word) : (s.requestClear v).currentIndex = s.currentIndex := rfl
@[simp] theorem State.requestClear_pulseNumber (s : State) (v : Word) : (s.requestClear v).pulseNumber = s.pulseNumber := rfl
@[simp] theorem State.requestClear_clearLast (s : State) (v : Word) : (s.requestClear v).clearLast = if v = 0#32 then true else s.clearLast := rfl
@[simp] theorem State.requestClear_phase (s : State) (v : Word) : (s.requestClear v).phase = s.phase := rfl
@[simp] theorem State.requestClear_initialised (s : State) (v : Word) : (s.requestClear v).initialised = s.initialised := rfl
@[simp] theorem State.requestClear_msg (s : State) (v : Word) : (s.requestClear v).msg = s.msg := rfl
@[simp] theorem State.requestClear_buf (s : State) (v : Word) : (s.requestClear v).buf = s.buf := rfl
@[simp] theorem State.requestClear_cfg (s : State) (v : Word) : (s.requestClear v).cfg = s.cfg := rfl
@[simp] theorem State.requestClear_deliveries (s : State) (v : Word) : (s.requestClear v).deliveries = s.deliveries := rfl
@[simp] theorem State.requestClear_responses (s : State) (v : Word) : (s.requestClear v).responses = s.responses := rfl
@[simp] theorem State.requestClear_peeked (s : State) (v : Word) : (s.requestClear v).peeked = s.peeked := rfl
@[simp] theorem State.requestClear_inputs (s : State) (v : Word) : (s.requestClear v).inputs = s.inputs := rfl
@[simp] theorem State.requestClear_faultMark (s : State) (v : Word) : (s.requestClear v).faultMark = s.faultMark := rfl
@[simp] theorem State.requestClear_refusalMark (s : State) (v : Word) : (s.requestClear v).refusalMark = s.refusalMark := rfl

/-! ## The Message under `countRepeat` -/

@[simp] theorem State.countRepeat_repeatCount (s : State) : s.countRepeat.msg.repeatCount =
    BitVec.ofNat 32 ((s.msg.repeatCount.toNat + 1) % 2 ^ s.cfg.repeatBits.width) := rfl

/-- A repeat code touches no other Message field (40_leadin.md R102). -/
theorem State.countRepeat_msg (s : State) :
    s.countRepeat.msg = { s.msg with repeatCount := s.countRepeat.msg.repeatCount } := rfl

/-! ## Message fields under `setData` and `setError` -/

@[simp] theorem Message.data_setData (m : Message) (f : DataField) (v : Byte) : (m.setData f v).data f = v := by
  cases f <;> rfl

@[simp] theorem Message.error_setError (m : Message) (f : DataField) (v : Byte) : (m.setError f v).error f = v := by
  cases f <;> rfl

@[simp] theorem Message.error_setData (m : Message) (f g : DataField) (v : Byte) :
    (m.setData f v).error g = m.error g := by
  cases f <;> cases g <;> rfl

@[simp] theorem Message.data_setError (m : Message) (f g : DataField) (v : Byte) :
    (m.setError f v).data g = m.data g := by
  cases f <;> cases g <;> rfl

@[simp] theorem Message.repeatCount_setData (m : Message) (f : DataField) (v : Byte) :
    (m.setData f v).repeatCount = m.repeatCount := by
  cases f <;> rfl

@[simp] theorem Message.repeatCount_setError (m : Message) (f : DataField) (v : Byte) :
    (m.setError f v).repeatCount = m.repeatCount := by
  cases f <;> rfl

end Sys2Proof.Machine
end

