-- ==== Sys2Proof/Laws/Ops.lean ====
section
/-! SUPPORT. What the shared operations do, each said once: the classifiers, the guards, the selection of a row, the
effect of a row, the accesses of the outside agents, and what one step can be. -/

namespace Sys2Proof.Machine

variable {s t u : State} {i : Instr}

/-! ## The schedule -/

@[simp] theorem Schedule.next_empty : Schedule.empty.next = none := rfl

@[simp] theorem Schedule.next_cons (e : Input) (q : Schedule) : (q.cons e).next = some (e, q) := rfl

/-- Nothing follows exactly where nothing is listed and the agents have stopped, or repeat nothing. -/
theorem Schedule.next_eq_none_iff {q : Schedule} :
    q.next = none ↔ q.listed = [] ∧ (q.onward = .quiet ∨ q.onward = .cycle []) := by
  rcases q with ⟨_ | ⟨e, l⟩, _ | ⟨_ | ⟨e', l'⟩⟩ | ⟨n, k⟩⟩ <;> simp [Schedule.next]

/-! ## Guards -/

theorem onRow_eq_next_iff : onRow i s t = .next u ↔ s.Selects i ∧ t = u := by
  by_cases h : s.Selects i
  · rw [onRow, if_pos h, Host.Outcome.next.injEq]; exact ⟨fun e => ⟨h, e⟩, fun e => e.2⟩
  · rw [onRow, if_neg h]; exact ⟨nofun, fun e => absurd e.1 h⟩

theorem onRow_of_selects (h : s.Selects i) : onRow i s t = .next t := if_pos h

theorem onRow_of_not_selects (h : ¬ s.Selects i) : onRow i s t = .refused .rowNotSelected := if_neg h

theorem whileIdle_of_idle {k} (h : s.phase = .idle) : whileIdle s k = k := by
  simp [whileIdle, h]

theorem whileIdle_of_busy {k} (h : s.phase = .busy) : whileIdle s k = .refused .hostWhileBusy := by
  simp [whileIdle, h]

theorem whileIdle_eq_next_iff {k} : whileIdle s k = .next u ↔ s.phase = .idle ∧ k = .next u := by
  cases h : s.phase <;> simp [whileIdle, h]

theorem whenInitialised_eq_next_iff {k} :
    whenInitialised s k = .next u ↔ s.initialised = true ∧ k = .next u := by
  cases h : s.initialised <;> simp [whenInitialised, h]

/-! ## Classifiers -/

theorem leadClass_eq_start_iff {m p : Word} :
    leadClass m p = .start ↔ inOpen 8750 9250 m ∧ inOpen 4250 4750 p := by
  unfold leadClass
  split_ifs with h
  · exact ⟨fun _ => h, fun _ => rfl⟩
  all_goals exact ⟨nofun, fun e => absurd e h⟩

theorem leadClass_eq_repeatCode_iff {m p : Word} :
    leadClass m p = .repeatCode ↔ inOpen 8750 9250 m ∧ inOpen 2250 2750 p := by
  unfold leadClass inOpen
  split_ifs
  all_goals simp
  all_goals omega

theorem decodePulse_eq_one_iff {m p : Word} :
    decodePulse m p = .one ↔ inOpen 500 600 m ∧ inOpen 1500 1800 p := by
  unfold decodePulse
  split_ifs with h
  · exact ⟨fun _ => h, fun _ => rfl⟩
  all_goals exact ⟨nofun, fun e => absurd e h⟩

theorem decodePulse_eq_zero_iff {m p : Word} :
    decodePulse m p = .zero ↔ inOpen 500 600 m ∧ inOpen 500 600 p := by
  unfold decodePulse inOpen
  split_ifs
  all_goals simp
  all_goals omega

/-! ## Selecting a row -/

/-- The row of R78 for a passing gate: by state, by whether the pulse is the field's last, by class. -/
def rowFor (q : ProtoState) (last : Bool) (lc : LeadClass) (pc : PulseClass) : Instr :=
  match q with
  | .leadIn => match lc with
    | .none => .leadSkip
    | .start => .leadStart
    | .repeatCode => .leadRepeat
  | .address => match last, pc with
    | false, .invalid => .addrBitX
    | false, .zero => .addrBit0
    | false, .one => .addrBit1
    | true, .invalid => .addrEndX
    | true, .zero => .addrEnd0
    | true, .one => .addrEnd1
  | .addressInv => match last, pc with
    | false, .invalid => .ainvBitX
    | false, .zero => .ainvBit0
    | false, .one => .ainvBit1
    | true, .invalid => .ainvEndX
    | true, .zero => .ainvEnd0
    | true, .one => .ainvEnd1
  | .command => match last, pc with
    | false, .invalid => .cmdBitX
    | false, .zero => .cmdBit0
    | false, .one => .cmdBit1
    | true, .invalid => .cmdEndX
    | true, .zero => .cmdEnd0
    | true, .one => .cmdEnd1
  | .commandInv => match last, pc with
    | false, .invalid => .cinvBitX
    | false, .zero => .cinvBit0
    | false, .one => .cinvBit1
    | true, .invalid => .cinvFrameX
    | true, .zero => .cinvFrame0
    | true, .one => .cinvFrame1

/-- A selector built as R77 says, from values the block can hold, selects the row of `rowFor`. -/
theorem decodeSelector_pass (q : ProtoState) (last : Bool) (lc : LeadClass) (pc : PulseClass) :
    decodeSelector (0#1 ++ (if last then 1#1 else 0#1) ++
      (match q with
        | .leadIn => lc.code
        | .address | .addressInv | .command | .commandInv => pc.code) ++ q.code) = some (rowFor q last lc pc) := by
  cases q <;> cases last <;> cases lc <;> cases pc <;> decide

theorem decodeSelector_fail (q : ProtoState) :
    decodeSelector (1#1 ++ 0#1 ++ 0#2 ++ q.code) = some .ret := by
  cases q <;> decide

/-- The row an iteration selects (44_control.md R192). -/
theorem State.decodeSelector_selector (s : State) :
    decodeSelector s.selector =
      some (if s.snapshot.gate then
        rowFor s.state (decide (s.pulseNumber = 7#3)) (leadClass s.mark s.space) (decodePulse s.mark s.space)
      else .ret) := by
  unfold State.selector
  by_cases hg : s.snapshot.gate = true
  · rw [if_pos hg, if_pos hg, ← decodeSelector_pass]
    unfold State.last State.cls
    by_cases h7 : s.pulseNumber = 7#3
    · rw [if_pos h7, decide_eq_true h7]; rfl
    · rw [if_neg h7, decide_eq_false h7]; rfl
  · rw [if_neg hg, if_neg hg, decodeSelector_fail]

theorem State.selects_iff (s : State) (i : Instr) :
    s.Selects i ↔ s.phase = .busy ∧
      (if s.snapshot.gate then
        rowFor s.state (decide (s.pulseNumber = 7#3)) (leadClass s.mark s.space) (decodePulse s.mark s.space)
      else .ret) = i := by
  unfold State.Selects
  rw [s.decodeSelector_selector, Option.some.injEq]

/-- Only the fields that the snapshot and the selector read matter to the selection. -/
theorem State.selects_inputs (s : State) (l : Schedule) (i : Instr) :
    ({ s with inputs := l } : State).Selects i ↔ s.Selects i := Iff.rfl

/-! ## The effect of a row -/

/-- What each transition row does to the state; a host command is no row. -/
def rowEffect (i : Instr) (s : State) : State :=
  match i with
  | .init | .decode | .rdreg _ | .wrreg _ _ => s
  | .ret => { s with phase := .idle }
  | .leadSkip => s.consume 1
  | .leadStart => (s.clearMessage.completeField .address).consume 2
  | .leadRepeat => s.countRepeat.deliver.consume 4
  | .addrBitX => s.bitInvalid .address
  | .addrBit0 => s.bitZero
  | .addrBit1 => s.bitOne .address
  | .addrEndX => s.endInvalid .address
  | .addrEnd0 => s.endZero .address
  | .addrEnd1 => s.endOne .address
  | .ainvBitX => s.bitInvalid .addressInv
  | .ainvBit0 => s.bitZero
  | .ainvBit1 => s.bitOne .addressInv
  | .ainvEndX => s.endInvalid .addressInv
  | .ainvEnd0 => s.endZero .addressInv
  | .ainvEnd1 => s.endOne .addressInv
  | .cmdBitX => s.bitInvalid .command
  | .cmdBit0 => s.bitZero
  | .cmdBit1 => s.bitOne .command
  | .cmdEndX => s.endInvalid .command
  | .cmdEnd0 => s.endZero .command
  | .cmdEnd1 => s.endOne .command
  | .cinvBitX => s.bitInvalid .commandInv
  | .cinvBit0 => s.bitZero
  | .cinvBit1 => s.bitOne .commandInv
  | .cinvFrameX => s.frameInvalid
  | .cinvFrame0 => s.frameZero
  | .cinvFrame1 => s.frameOne

/-- A transition row, no host command. -/
def Instr.isRow : Instr → Bool
  | .init | .decode | .rdreg _ | .wrreg _ _ => false
  | .ret => true
  | .leadSkip => true
  | .leadStart => true
  | .leadRepeat => true
  | .addrBitX => true
  | .addrBit0 => true
  | .addrBit1 => true
  | .addrEndX => true
  | .addrEnd0 => true
  | .addrEnd1 => true
  | .ainvBitX => true
  | .ainvBit0 => true
  | .ainvBit1 => true
  | .ainvEndX => true
  | .ainvEnd0 => true
  | .ainvEnd1 => true
  | .cmdBitX => true
  | .cmdBit0 => true
  | .cmdBit1 => true
  | .cmdEndX => true
  | .cmdEnd0 => true
  | .cmdEnd1 => true
  | .cinvBitX => true
  | .cinvBit0 => true
  | .cinvBit1 => true
  | .cinvFrameX => true
  | .cinvFrame0 => true
  | .cinvFrame1 => true

/-- Every row's meaning is its effect under the guard of its selector. -/
theorem exec_row (h : Instr.isRow i = true) (s : State) : exec i s = onRow i s (rowEffect i s) := by
  cases i <;> first | rfl | exact absurd h Bool.false_ne_true

theorem exec_row_eq_next_iff (h : Instr.isRow i = true) :
    exec i s = .next t ↔ s.Selects i ∧ rowEffect i s = t := by
  rw [exec_row h, onRow_eq_next_iff]

/-- What a selector selects is a row. -/
theorem State.Selects.isRow (h : s.Selects i) : Instr.isRow i = true := by
  obtain ⟨-, h⟩ := (s.selects_iff i).mp h
  subst h
  split
  · cases s.state <;> cases decide (s.pulseNumber = 7#3) <;> cases leadClass s.mark s.space <;>
      cases decodePulse s.mark s.space <;> rfl
  · rfl

/-! ## The host commands -/

theorem exec_init_of_idle (h : s.phase = .idle) :
    exec .init s = .next { s with
      state := .leadIn, currentIndex := 0, pulseNumber := 0#3, clearLast := false, msg := Message.zero,
      buf := [], initialised := true } := whileIdle_of_idle h

theorem exec_decode_eq_next_iff :
    exec .decode s = .next t ↔
      s.phase = .idle ∧ s.initialised = true ∧ { s.deferredClear with phase := .busy } = t := by
  simp only [exec, execDecode, whileIdle_eq_next_iff, whenInitialised_eq_next_iff, Host.Outcome.next.injEq]

theorem exec_rdreg_eq_next_iff {r : Reg} :
    exec (.rdreg r) s = .next t ↔
      s.phase = .idle ∧ (r.isConfig = true ∨ s.initialised = true) ∧ s.respond (s.readReg r) = t := by
  simp only [exec, execRdreg, whileIdle_eq_next_iff]
  cases h : r.isConfig <;> simp [whenInitialised_eq_next_iff]

theorem exec_wrreg_eq_next_iff {r : Reg} {d : Word} :
    exec (.wrreg r d) s = .next t ↔
      s.phase = .idle ∧ s.initialised = true ∧ r.isConfig = false ∧ d.toNat < s.legalBound r ∧
        s.writeReg d r = t := by
  simp only [exec, execWrreg, whileIdle_eq_next_iff, whenInitialised_eq_next_iff]
  cases h : r.isConfig <;> simp [ite_eq_iff]

/-! ## The deferred clear -/

theorem State.deferredClear_of_clear (h : s.clearLast = false) : s.deferredClear = s := by
  simp [State.deferredClear, h]

theorem State.deferredClear_of_set (h : s.clearLast = true) :
    s.deferredClear = { s with buf := s.buf.write s.slotBehind 0#32, clearLast := false } := by
  simp [State.deferredClear, h]

/-- The prelude touches only the buffer and the flag (43_buffer.md R176). -/
theorem State.deferredClear_frame (s : State) :
    s.deferredClear = { s with buf := s.deferredClear.buf, clearLast := false } := by
  cases h : s.clearLast
  · rw [State.deferredClear_of_clear h]; cases s; simp_all
  · rw [State.deferredClear_of_set h]

/-- The instruction that answers a next state is a selected row with its effect, or a host command with its effect. -/
theorem exec_cases (h : exec i s = .next t) :
    (Instr.isRow i = true ∧ s.Selects i ∧ rowEffect i s = t) ∨
    (i = .init ∧ s.phase = .idle ∧ { s with
      state := .leadIn, currentIndex := 0, pulseNumber := 0#3, clearLast := false, msg := Message.zero,
      buf := [], initialised := true } = t) ∨
    (i = .decode ∧ s.phase = .idle ∧ s.initialised = true ∧ { s.deferredClear with phase := .busy } = t) ∨
    (∃ r, i = .rdreg r ∧ s.phase = .idle ∧ s.respond (s.readReg r) = t) ∨
    (∃ r d, i = .wrreg r d ∧ s.phase = .idle ∧ d.toNat < s.legalBound r ∧ s.writeReg d r = t) := by
  cases i
  case init =>
    obtain ⟨hp, hk⟩ := whileIdle_eq_next_iff.mp h
    exact .inr (.inl ⟨rfl, hp, Host.Outcome.next.inj hk⟩)
  case decode => exact .inr (.inr (.inl ⟨rfl, exec_decode_eq_next_iff.mp h⟩))
  case rdreg r =>
    obtain ⟨hp, -, ht⟩ := exec_rdreg_eq_next_iff.mp h
    exact .inr (.inr (.inr (.inl ⟨r, rfl, hp, ht⟩)))
  case wrreg r d =>
    obtain ⟨hp, -, -, hl, ht⟩ := exec_wrreg_eq_next_iff.mp h
    exact .inr (.inr (.inr (.inr ⟨r, d, rfl, hp, hl, ht⟩)))
  all_goals exact .inl ⟨rfl, (exec_row_eq_next_iff rfl).mp h⟩

/-! ## Outside accesses -/

theorem writeSlot_eq_next_iff {k : Nat} {v : Word} :
    writeSlot k v s = .next t ↔ k < s.cfg.bufferSize ∧ { s with buf := s.buf.write k v } = t := by
  unfold writeSlot slotInRange
  split <;> simp_all

theorem readSlot_eq_next_iff {k : Nat} :
    readSlot k s = .next t ↔ k < s.cfg.bufferSize ∧ { s with peeked := s.peeked ++ [s.buf.read k] } = t := by
  unfold readSlot slotInRange
  split <;> simp_all

/-! ## What one step can be -/

/-- An unmarked machine with a legal configuration lets its schedule move. -/
theorem nextTurn_of_unmarked (hf : s.faultMark = none) (hr : s.refusalMark = none) (hl : s.cfg.legal) :
    nextTurn s = scheduledTurn s := by
  rw [nextTurn, hf, hr]
  exact if_pos hl

theorem step_of_turn (h : nextTurn s = .run i u) : step s = exec i u := by
  rw [step, h]

theorem step_of_done {o : Host.Outcome State Fault Refusal} (h : nextTurn s = .done o) : step s = o := by
  rw [step, h]

theorem iterationTurn_eq (s : State) : ∃ i, decodeSelector s.selector = some i ∧ iterationTurn s = .run i s := by
  refine ⟨_, s.decodeSelector_selector, ?_⟩
  rw [iterationTurn, s.decodeSelector_selector]

theorem commandTurn_of_decode {cmd : Byte} {data : Word} (h : decodeCommand cmd data = some i) :
    commandTurn cmd data s = .run i s := by
  simp [commandTurn, h]

/-- A step that answers a next state runs an unmarked, legally configured state and is one of: an instruction (the row
an iteration selects, or the host's next command), a write of a slot, a read of a slot, or nothing. -/
theorem step_cases (h : step s = .next t) :
    s.faultMark = none ∧ s.refusalMark = none ∧ s.cfg.legal ∧
      ∃ l : Schedule,
        (∃ i, s.Selects i ∧ exec i { s with inputs := l } = .next t) ∨
        (s.phase = .idle ∧ ∃ i cmd data, decodeCommand cmd data = some i ∧ exec i { s with inputs := l } = .next t) ∨
        (∃ k v, writeSlot k v { s with inputs := l } = .next t) ∨
        (s.phase = .idle ∧ ∃ k, readSlot k { s with inputs := l } = .next t) ∨
        (s.phase = .idle ∧ t = { s with inputs := l }) := by
  have iter : ∀ l : Schedule, s.phase = .busy →
      (match iterationTurn { s with inputs := l } with
        | .run i t => exec i t
        | .done o => o) = Host.Outcome.next t →
      ∃ i, s.Selects i ∧ exec i { s with inputs := l } = .next t := by
    intro l hp hx
    obtain ⟨i, hi, he⟩ := iterationTurn_eq { s with inputs := l }
    rw [he] at hx
    exact ⟨i, ⟨hp, hi⟩, hx⟩
  unfold step nextTurn at h
  have hmarks : s.faultMark = none ∧ s.refusalMark = none ∧ s.cfg.legal := by
    rcases hf : s.faultMark with _ | f <;> rcases hr : s.refusalMark with _ | r <;> rw [hf, hr] at h
    · refine ⟨rfl, rfl, ?_⟩
      by_contra hl
      simp only [if_neg hl] at h
      exact absurd h nofun
    all_goals exact absurd h nofun
  obtain ⟨hf, hr, hl⟩ := hmarks
  rw [hf, hr] at h
  simp only [if_pos hl] at h
  refine ⟨hf, hr, hl, ?_⟩
  have hphase : s.phase = .busy ∨ s.phase = .idle := by cases s.phase <;> simp
  rcases hin : s.inputs.next with _ | ⟨e, rest⟩
  · rcases hphase with hp | hp
    · simp only [scheduledTurn, hin, decoderTurn, hp] at h
      exact ⟨s.inputs, .inl (iter s.inputs hp h)⟩
    · simp only [scheduledTurn, hin, decoderTurn, hp, Host.Outcome.next.injEq] at h
      exact ⟨s.inputs, .inr (.inr (.inr (.inr ⟨hp, h.symm⟩)))⟩
  · rcases e with ⟨cmd, data⟩ | ⟨k, v⟩ | k | ⟨k, v⟩ | _
    · rcases hphase with hp | hp
      · simp only [scheduledTurn, hin, hp] at h
        exact ⟨s.inputs, .inl (iter s.inputs hp h)⟩
      · simp only [scheduledTurn, hin, hp, commandTurn] at h
        cases hd : decodeCommand cmd data with
        | none => rw [hd] at h; cases h
        | some i =>
          rw [hd] at h
          exact ⟨rest, .inr (.inl ⟨hp, i, cmd, data, hd, by rw [hp]; exact h⟩)⟩
    · rcases hphase with hp | hp
      · simp only [scheduledTurn, hin, hp] at h
        exact ⟨s.inputs, .inl (iter s.inputs hp h)⟩
      · simp only [scheduledTurn, hin, hp] at h
        exact ⟨rest, .inr (.inr (.inl ⟨k, v, by rw [hp]; exact h⟩))⟩
    · rcases hphase with hp | hp
      · simp only [scheduledTurn, hin, hp] at h
        exact ⟨s.inputs, .inl (iter s.inputs hp h)⟩
      · simp only [scheduledTurn, hin, hp] at h
        exact ⟨rest, .inr (.inr (.inr (.inl ⟨hp, k, by rw [hp]; exact h⟩)))⟩
    · simp only [scheduledTurn, hin] at h
      exact ⟨rest, .inr (.inr (.inl ⟨k, v, h⟩))⟩
    · rcases hphase with hp | hp
      · simp only [scheduledTurn, hin, decoderTurn, hp] at h
        exact ⟨rest, .inl (iter rest hp (by rw [hp]; exact h))⟩
      · simp only [scheduledTurn, hin, decoderTurn, hp, Host.Outcome.next.injEq] at h
        exact ⟨rest, .inr (.inr (.inr (.inr ⟨hp, by rw [← h, hp]⟩)))⟩

/-! ## Runs, and the machine of a configuration -/

theorem run_of_step {M : Host.Core} {x y : M.State} {k : Nat} (h : M.step x = .next y) : M.run (k + 1) x = M.run k y := by
  simp only [Host.Core.run, h]

theorem core_run_of_step {k : Nat} (h : step s = .next t) : Sys2Proof.core.run (k + 1) s = Sys2Proof.core.run k t :=
  run_of_step (M := Sys2Proof.core) h

theorem machine_step (c : Config) (s : State) : (machine c).step s = step { s with cfg := c } := rfl

@[simp] theorem State.resetWith_cfg (c : Config) : (State.resetWith c).cfg = c := rfl

end Sys2Proof.Machine
end

