-- ==== Sys2Proof/Laws/PerInstr.lean ====
section
/-! SUPPORT. Statements per instruction. Family `OpcodeRow`: the word the encoder writes carries the fixed bits that the
opcode table gives the instruction's row. -/

namespace Sys2Proof.Laws.OpcodeRow

/-- The low word of an encoding, as the opcode table numbers it. -/
def lowWord : Encoded → Nat
  | .command cmd _ => cmd.toNat
  | .selector sel => sel.toNat

/-- Match and mask of an instruction's row of the opcode table (30_encoding.md R74, R78). -/
def row : Instr → Nat × Nat
  | .init => (0x01, 0xFF)
  | .decode => (0x02, 0xFF)
  | .rdreg _ => (0x10, 0xF0)
  | .wrreg _ _ => (0x20, 0xF0)
  | .ret => (0x40, 0x40)
  | .leadSkip => (0x00, 0x5F)
  | .leadStart => (0x08, 0x5F)
  | .leadRepeat => (0x10, 0x5F)
  | .addrBitX => (0x01, 0x7F)
  | .addrBit0 => (0x09, 0x7F)
  | .addrBit1 => (0x11, 0x7F)
  | .addrEndX => (0x21, 0x7F)
  | .addrEnd0 => (0x29, 0x7F)
  | .addrEnd1 => (0x31, 0x7F)
  | .ainvBitX => (0x02, 0x7F)
  | .ainvBit0 => (0x0A, 0x7F)
  | .ainvBit1 => (0x12, 0x7F)
  | .ainvEndX => (0x22, 0x7F)
  | .ainvEnd0 => (0x2A, 0x7F)
  | .ainvEnd1 => (0x32, 0x7F)
  | .cmdBitX => (0x03, 0x7F)
  | .cmdBit0 => (0x0B, 0x7F)
  | .cmdBit1 => (0x13, 0x7F)
  | .cmdEndX => (0x23, 0x7F)
  | .cmdEnd0 => (0x2B, 0x7F)
  | .cmdEnd1 => (0x33, 0x7F)
  | .cinvBitX => (0x04, 0x7F)
  | .cinvBit0 => (0x0C, 0x7F)
  | .cinvBit1 => (0x14, 0x7F)
  | .cinvFrameX => (0x24, 0x7F)
  | .cinvFrame0 => (0x2C, 0x7F)
  | .cinvFrame1 => (0x34, 0x7F)

/-- The encoding agrees with its row on the fixed bits. -/
def Statement (i : Instr) : Prop :=
  lowWord (encode i) &&& (row i).2 = (row i).1

theorem init : Statement .init := by
  unfold Statement; decide

theorem decode : Statement .decode := by
  unfold Statement; decide

theorem rdreg (r : Reg) : Statement (.rdreg r) := by
  unfold Statement; cases r <;> decide

theorem wrreg (r : Reg) (data : Word) : Statement (.wrreg r data) := by
  unfold Statement
  cases r <;> (simp only [lowWord, encode, row, Reg.index]; decide)

theorem ret : Statement .ret := by
  unfold Statement; decide

theorem leadSkip : Statement .leadSkip := by
  unfold Statement; decide

theorem leadStart : Statement .leadStart := by
  unfold Statement; decide

theorem leadRepeat : Statement .leadRepeat := by
  unfold Statement; decide

theorem addrBitX : Statement .addrBitX := by
  unfold Statement; decide

theorem addrBit0 : Statement .addrBit0 := by
  unfold Statement; decide

theorem addrBit1 : Statement .addrBit1 := by
  unfold Statement; decide

theorem addrEndX : Statement .addrEndX := by
  unfold Statement; decide

theorem addrEnd0 : Statement .addrEnd0 := by
  unfold Statement; decide

theorem addrEnd1 : Statement .addrEnd1 := by
  unfold Statement; decide

theorem ainvBitX : Statement .ainvBitX := by
  unfold Statement; decide

theorem ainvBit0 : Statement .ainvBit0 := by
  unfold Statement; decide

theorem ainvBit1 : Statement .ainvBit1 := by
  unfold Statement; decide

theorem ainvEndX : Statement .ainvEndX := by
  unfold Statement; decide

theorem ainvEnd0 : Statement .ainvEnd0 := by
  unfold Statement; decide

theorem ainvEnd1 : Statement .ainvEnd1 := by
  unfold Statement; decide

theorem cmdBitX : Statement .cmdBitX := by
  unfold Statement; decide

theorem cmdBit0 : Statement .cmdBit0 := by
  unfold Statement; decide

theorem cmdBit1 : Statement .cmdBit1 := by
  unfold Statement; decide

theorem cmdEndX : Statement .cmdEndX := by
  unfold Statement; decide

theorem cmdEnd0 : Statement .cmdEnd0 := by
  unfold Statement; decide

theorem cmdEnd1 : Statement .cmdEnd1 := by
  unfold Statement; decide

theorem cinvBitX : Statement .cinvBitX := by
  unfold Statement; decide

theorem cinvBit0 : Statement .cinvBit0 := by
  unfold Statement; decide

theorem cinvBit1 : Statement .cinvBit1 := by
  unfold Statement; decide

theorem cinvFrameX : Statement .cinvFrameX := by
  unfold Statement; decide

theorem cinvFrame0 : Statement .cinvFrame0 := by
  unfold Statement; decide

theorem cinvFrame1 : Statement .cinvFrame1 := by
  unfold Statement; decide

end Sys2Proof.Laws.OpcodeRow
end

