-- ==== Sys2Proof/Tests/Slice0.lean ====
section
/-! SUPPORT. Tests of one step each, with expected results from 95_test_vectors.md or worked out by hand from the rules, and a
named witness for every statement that has hypotheses. -/

namespace Sys2Proof.Tests

open Sys2Proof Sys2Proof.Machine Sys2Proof.Claims

/-! ## Helpers -/

/-- The given timestamps in consecutive slots from i on, modulo N. -/
def withSlots (i : Nat) (ts : List Nat) (s : State) : State :=
  { s with buf := (ts.zipIdx i).foldl (fun b p => Buffer.write b (p.2 % s.cfg.bufferSize) (BitVec.ofNat 32 p.1)) s.buf }

/-- The reset state in the middle of a call: the state, the pulse number, the cursor, and the slots at it. -/
def busyAt (q : ProtoState) (n : BitVec 3) (c : Nat) (ts : List Nat) : State :=
  withSlots c ts { State.reset with phase := .busy, state := q, pulseNumber := n, currentIndex := c }

/-- The reset state with slots 0 on filled and one command byte to come. -/
def commanded (ts : List Nat) (cmd : Byte) (data : Word) : State :=
  (withSlots 0 ts State.reset).withCommand cmd data

/-- The power-on state that holds the reset values: one of the states `State.PowerOn` admits. -/
def poweredOn : State :=
  { State.reset with initialised := false }

/-- The next state of an outcome. -/
def after : Host.Outcome State Fault Refusal → Option State
  | .next t => some t
  | .fault _ => none
  | .refused _ => none

/-- The fault of an outcome. -/
def faultOf : Host.Outcome State Fault Refusal → Option Fault
  | .next _ => none
  | .fault f => some f
  | .refused _ => none

/-- The refusal of an outcome. -/
def refusalOf : Host.Outcome State Fault Refusal → Option Refusal
  | .next _ => none
  | .fault _ => none
  | .refused r => some r

/-- The schedule of the listed actions, after which nothing comes. -/
def only (l : List Input) : Schedule :=
  { listed := l, onward := .quiet }

/-- Four slots from index i on, as numbers. -/
def slotsFrom (i : Nat) (t : State) : List Nat :=
  [(t.buf.read i).toNat, (t.buf.read (i + 1)).toNat, (t.buf.read (i + 2)).toNat, (t.buf.read (i + 3)).toNat]

/-! ## Well-formedness: each check refuses an ill-formed term (00_scope.md R6, 20_memory.md R52, 60_exceptions.md R212) -/

theorem test_config_clock_speed_zero_is_illegal : ¬ Config.legal { Config.initial with clockSpeed := 0#32 } := by decide

theorem test_config_without_slots_is_illegal : ¬ Config.legal { Config.initial with bufferSize := 0 } := by decide

theorem test_config_with_too_many_slots_is_illegal :
    ¬ Config.legal { Config.initial with bufferSize := 2 ^ 32 + 1 } ∧
      Config.legal { Config.initial with bufferSize := 2 ^ 32 } := by decide

theorem test_slot_past_the_end_is_ill_formed :
    (Input.hostWrite 16 1#32).wf 16 = false ∧ (Input.hostRead 16).wf 16 = false ∧
      (Input.capture 16 1#32).wf 16 = false ∧ (Input.capture 15 1#32).wf 16 = true := by decide

/-- A buildable request, the configuration of 95_test_vectors.md. -/
def goodRequest : BuildRequest :=
  { period := 8400000, clockSpeed := 84, bufferSize := 16, repeatBits := 8, bufferByteOrder := .little
    bufferBase := 0, bufferId := 0, messageId := 0 }

theorem test_build_refuses_each_illegal_parameter :
    build goodRequest = .ok Config.initial ∧
      build { goodRequest with period := 2 ^ 32 } = .error .illegalConfiguration ∧
      build { goodRequest with clockSpeed := 0 } = .error .illegalConfiguration ∧
      build { goodRequest with bufferSize := 0 } = .error .illegalConfiguration ∧
      build { goodRequest with repeatBits := 24 } = .error .illegalConfiguration := ⟨rfl, rfl, rfl, rfl, rfl⟩

theorem test_build_refuses_a_shared_message :
    buildAll [goodRequest, { goodRequest with bufferId := 1 }] = .error .sharedInstance ∧
      buildAll [goodRequest, { goodRequest with bufferId := 1, messageId := 1 }] = .ok [Config.initial, Config.initial] :=
  ⟨rfl, rfl⟩

/-! ## Decoding: words written bit by bit from 30_encoding.md R73 to R78 (a selector is fail, last, cls, st) -/

theorem test_decode_commands :
    decode (.command 0b00000001#8 0#32) = .instr .init ∧
      decode (.command 0b00000010#8 0#32) = .instr .decode ∧
      decode (.command 0b00011101#8 0#32) = .instr (.rdreg .period) ∧
      decode (.command 0b00101100#8 0xFF#32) = .instr (.wrreg .repeatCount 0xFF#32) := by decide

theorem test_decode_reserved_commands :
    decode (.command 0x00#8 0#32) = .reservedCommand ∧ decode (.command 0x03#8 0#32) = .reservedCommand ∧
      decode (.command 0x30#8 0#32) = .reservedCommand ∧ decode (.command 0xFF#8 0#32) = .reservedCommand := by decide

theorem test_decode_return :
    decode (.selector 0b1_0_00_000#7) = .instr .ret ∧ decode (.selector 0b1_1_11_111#7) = .instr .ret := by decide

theorem test_decode_lead :
    decode (.selector 0b0_0_00_000#7) = .instr .leadSkip ∧ decode (.selector 0b0_0_01_000#7) = .instr .leadStart ∧
      decode (.selector 0b0_0_10_000#7) = .instr .leadRepeat ∧ decode (.selector 0b0_1_00_000#7) = .instr .leadSkip ∧
      decode (.selector 0b0_1_10_000#7) = .instr .leadRepeat := by decide

theorem test_decode_addr :
    decode (.selector 0b0_0_00_001#7) = .instr .addrBitX ∧ decode (.selector 0b0_0_01_001#7) = .instr .addrBit0 ∧
      decode (.selector 0b0_0_10_001#7) = .instr .addrBit1 ∧ decode (.selector 0b0_1_00_001#7) = .instr .addrEndX ∧
      decode (.selector 0b0_1_01_001#7) = .instr .addrEnd0 ∧ decode (.selector 0b0_1_10_001#7) = .instr .addrEnd1 := by
  decide

theorem test_decode_ainv :
    decode (.selector 0b0_0_00_010#7) = .instr .ainvBitX ∧ decode (.selector 0b0_0_01_010#7) = .instr .ainvBit0 ∧
      decode (.selector 0b0_0_10_010#7) = .instr .ainvBit1 ∧ decode (.selector 0b0_1_00_010#7) = .instr .ainvEndX ∧
      decode (.selector 0b0_1_01_010#7) = .instr .ainvEnd0 ∧ decode (.selector 0b0_1_10_010#7) = .instr .ainvEnd1 := by
  decide

theorem test_decode_cmd :
    decode (.selector 0b0_0_00_011#7) = .instr .cmdBitX ∧ decode (.selector 0b0_0_01_011#7) = .instr .cmdBit0 ∧
      decode (.selector 0b0_0_10_011#7) = .instr .cmdBit1 ∧ decode (.selector 0b0_1_00_011#7) = .instr .cmdEndX ∧
      decode (.selector 0b0_1_01_011#7) = .instr .cmdEnd0 ∧ decode (.selector 0b0_1_10_011#7) = .instr .cmdEnd1 := by
  decide

theorem test_decode_cinv :
    decode (.selector 0b0_0_00_100#7) = .instr .cinvBitX ∧ decode (.selector 0b0_0_01_100#7) = .instr .cinvBit0 ∧
      decode (.selector 0b0_0_10_100#7) = .instr .cinvBit1 ∧ decode (.selector 0b0_1_00_100#7) = .instr .cinvFrameX ∧
      decode (.selector 0b0_1_01_100#7) = .instr .cinvFrame0 ∧ decode (.selector 0b0_1_10_100#7) = .instr .cinvFrame1 := by
  decide

theorem test_decode_reserved_selectors :
    decode (.selector 0b0_0_11_000#7) = .reservedSelector ∧ decode (.selector 0b0_0_00_101#7) = .reservedSelector ∧
      decode (.selector 0b0_1_10_111#7) = .reservedSelector := by decide

/-- The opcode table's words: one of each code space, and the collision 0x02 (log 11). -/
theorem test_table_words :
    decodeTableWord 8 0x01 = some .init ∧ decodeTableWord 8 0x02 = some .decode ∧
      decodeTableWord 8 0x34 = some .cinvFrame1 ∧ decodeTableWord 8 0x40 = some .ret ∧
      decodeTableWord 7 0x02 = some .ainvBitX ∧ decodeTableWord 40 0x9E26 = some (.wrreg .command 0x9E#32) ∧
      decodeTableWord 8 0xFF = none := by decide

/-! ## Pulse timing and the gate (95_test_vectors.md 2.1 to 2.5) -/

theorem test_duration :
    duration 8400000#32 8300000#32 100000#32 = 200000#32 ∧ duration 8400000#32 5000#32 5000#32 = 0#32 ∧
      duration 8400000#32 5#32 0#32 = 8399995#32 ∧ duration 100#32 200#32 50#32 = 4294967246#32 ∧
      duration 0#32 10#32 3#32 = 4294967289#32 := by decide

theorem test_us :
    us 84#32 757396#32 = 9016#32 ∧ us 84#32 50399#32 = 599#32 ∧ us 84#32 50400#32 = 600#32 ∧ us 84#32 83#32 = 0#32 ∧
      us 84#32 4294967295#32 = 51130563#32 := by decide

theorem test_lead_class :
    leadClass 8751#32 4251#32 = .start ∧ leadClass 9249#32 4749#32 = .start ∧ leadClass 8750#32 4500#32 = .none ∧
      leadClass 9250#32 4500#32 = .none ∧ leadClass 9000#32 4250#32 = .none ∧ leadClass 9000#32 4750#32 = .none ∧
      leadClass 9000#32 2251#32 = .repeatCode ∧ leadClass 9000#32 2749#32 = .repeatCode ∧
      leadClass 9000#32 2250#32 = .none ∧ leadClass 9000#32 2750#32 = .none := by decide

theorem test_decode_pulse :
    decodePulse 501#32 1501#32 = .one ∧ decodePulse 599#32 1799#32 = .one ∧ decodePulse 500#32 1687#32 = .invalid ∧
      decodePulse 600#32 1687#32 = .invalid ∧ decodePulse 562#32 1500#32 = .invalid ∧
      decodePulse 562#32 1800#32 = .invalid ∧ decodePulse 562#32 501#32 = .zero ∧ decodePulse 562#32 599#32 = .zero ∧
      decodePulse 562#32 500#32 = .invalid ∧ decodePulse 562#32 600#32 = .invalid := by decide

theorem test_gate_passes :
    [Snapshot.mk 0 5 6 0, ⟨9, 5, 6, 0⟩, ⟨9, 0, 6, 0⟩, ⟨9, 0, 6, 7⟩, ⟨5, 6, 0, 2⟩].all Snapshot.gate = true := by decide

theorem test_gate_fails :
    [Snapshot.mk 5 0 9 0, ⟨5, 6, 0, 7⟩, ⟨5, 6, 0, 0⟩, ⟨5, 0, 0, 3⟩, ⟨0, 0, 5, 6⟩, ⟨0, 5, 0, 6⟩, ⟨0, 0, 0, 0⟩].any
      Snapshot.gate = false := by decide

/-! ## Lead-in rows and RETURN (95_test_vectors.md E1, E2, E4, 2.6, B3) -/

theorem test_lead_start :
    (after (exec .leadStart (busyAt .leadIn 0#3 0 [1705052, 2462448, 2844152]))).map
        (fun t => (t.state, t.currentIndex, t.deliveries.length, slotsFrom 0 t)) =
      some (.address, 2, 0, [0, 0, 2844152, 0]) := by decide

/-- E6: the cursor wraps from N - 1 to 1; slots 15 and 0 are zeroed. -/
theorem test_lead_start_wraps :
    (after (exec .leadStart (withSlots 0 [2462448, 2844152] (busyAt .leadIn 0#3 15 [1705052])))).map
        (fun t => (t.state, t.currentIndex, t.buf)) =
      some (.address, 1, [(1, 2844152#32)]) := by decide

theorem test_lead_repeat :
    (after (exec .leadRepeat
        (State.writeReg (busyAt .leadIn 0#3 0 [7309478, 8065082, 8260597, 8305454]) 0x9E#32 .command))).map
        (fun t => (t.state, t.currentIndex, t.buf, t.deliveries)) =
      some (.leadIn, 4, [], [{ Message.zero with command := 0x9E#8, repeatCount := 1#32 }]) := by decide

/-- 2.6: the repeat counter wraps at 2^REPEAT_BITS. -/
theorem test_lead_repeat_wraps :
    (after (exec .leadRepeat
        (State.writeReg (busyAt .leadIn 0#3 0 [7309478, 8065082, 8260597, 8305454]) 255#32 .repeatCount))).map
        (fun t => (t.msg.repeatCount, t.deliveries)) = some (0#32, [Message.zero]) := by decide

theorem test_lead_skip :
    (after (exec .leadSkip (busyAt .leadIn 0#3 0 [705052, 2462448, 3844152]))).map
        (fun t => (t.state, t.currentIndex, slotsFrom 0 t)) =
      some (.leadIn, 1, [0, 2462448, 3844152, 0]) := by decide

/-- B3: with N = 3 slot(3) is slot(0), and the gate passes by its third term. -/
theorem test_lead_skip_aliased :
    (after (exec .leadSkip
        { busyAt .leadIn 0#3 0 [1000000, 1047208] with cfg := { Config.initial with bufferSize := 3 } })).map
        (fun t => (t.currentIndex, slotsFrom 0 t)) = some (1, [0, 1047208, 0, 0]) := by decide

theorem test_return :
    after (exec .ret (busyAt .address 0#3 2 [2844152])) =
      some { busyAt .address 0#3 2 [2844152] with phase := .idle } := by decide

/-! ## Data rows (95_test_vectors.md 2.7) -/

/-- Pattern S1, a `ONE` pulse. -/
def s1 : List Nat := [1000000, 1047208, 1188916, 1236124]

/-- Pattern S0, a `ZERO` pulse. -/
def s0 : List Nat := [1000000, 1047208, 1094416, 1141624]

/-- Pattern SX, an `INVALID` pulse. -/
def sX : List Nat := [1000000, 1047208, 1131208, 1178416]

/-- The start of a vector: cursor 4, the field 0x10, its error mask 0x01. -/
def dataState (f : DataField) (n : BitVec 3) (ts : List Nat) : State :=
  { busyAt f.state n 4 ts with msg := (Message.zero.setData f 0x10#8).setError f 0x01#8 }

/-- The columns of the table. -/
structure DataColumns where
  state : ProtoState
  pulseNumber : BitVec 3
  currentIndex : Nat
  data : Byte
  error : Byte
  clearLast : Bool
  deliveries : Nat
  slots : List Nat
deriving DecidableEq, Repr

/-- The columns after the row. -/
def dataAfter (i : Instr) (f : DataField) (s : State) : Option DataColumns :=
  (after (exec i s)).map fun t =>
    ⟨t.state, t.pulseNumber, t.currentIndex, t.msg.data f, t.msg.error f, t.clearLast, t.deliveries.length, slotsFrom 4 t⟩

theorem test_addr_bit1 :
    dataAfter .addrBit1 .address (dataState .address 3#3 s1) =
      some ⟨.address, 4#3, 6, 0x18#8, 0x01#8, false, 0, [0, 0, 1188916, 1236124]⟩ := by decide

theorem test_addr_bit0 :
    dataAfter .addrBit0 .address (dataState .address 3#3 s0) =
      some ⟨.address, 4#3, 6, 0x10#8, 0x01#8, false, 0, [0, 0, 1094416, 1141624]⟩ := by decide

theorem test_addr_bitx :
    dataAfter .addrBitX .address (dataState .address 3#3 sX) =
      some ⟨.address, 4#3, 6, 0x10#8, 0x09#8, false, 0, [0, 0, 1131208, 1178416]⟩ := by decide

theorem test_addr_end1 :
    dataAfter .addrEnd1 .address (dataState .address 7#3 s1) =
      some ⟨.addressInv, 0#3, 6, 0x90#8, 0x01#8, false, 0, [0, 0, 1188916, 1236124]⟩ := by decide

theorem test_addr_end0 :
    dataAfter .addrEnd0 .address (dataState .address 7#3 s0) =
      some ⟨.addressInv, 0#3, 6, 0x10#8, 0x01#8, false, 0, [0, 0, 1094416, 1141624]⟩ := by decide

theorem test_addr_endx :
    dataAfter .addrEndX .address (dataState .address 7#3 sX) =
      some ⟨.addressInv, 0#3, 6, 0x10#8, 0x81#8, false, 0, [0, 0, 1131208, 1178416]⟩ := by decide

theorem test_ainv_bit1 :
    dataAfter .ainvBit1 .addressInv (dataState .addressInv 3#3 s1) =
      some ⟨.addressInv, 4#3, 6, 0x18#8, 0x01#8, false, 0, [0, 0, 1188916, 1236124]⟩ := by decide

theorem test_ainv_bit0 :
    dataAfter .ainvBit0 .addressInv (dataState .addressInv 3#3 s0) =
      some ⟨.addressInv, 4#3, 6, 0x10#8, 0x01#8, false, 0, [0, 0, 1094416, 1141624]⟩ := by decide

theorem test_ainv_bitx :
    dataAfter .ainvBitX .addressInv (dataState .addressInv 3#3 sX) =
      some ⟨.addressInv, 4#3, 6, 0x10#8, 0x09#8, false, 0, [0, 0, 1131208, 1178416]⟩ := by decide

theorem test_ainv_end1 :
    dataAfter .ainvEnd1 .addressInv (dataState .addressInv 7#3 s1) =
      some ⟨.command, 0#3, 6, 0x90#8, 0x01#8, false, 0, [0, 0, 1188916, 1236124]⟩ := by decide

theorem test_ainv_end0 :
    dataAfter .ainvEnd0 .addressInv (dataState .addressInv 7#3 s0) =
      some ⟨.command, 0#3, 6, 0x10#8, 0x01#8, false, 0, [0, 0, 1094416, 1141624]⟩ := by decide

theorem test_ainv_endx :
    dataAfter .ainvEndX .addressInv (dataState .addressInv 7#3 sX) =
      some ⟨.command, 0#3, 6, 0x10#8, 0x81#8, false, 0, [0, 0, 1131208, 1178416]⟩ := by decide

theorem test_cmd_bit1 :
    dataAfter .cmdBit1 .command (dataState .command 3#3 s1) =
      some ⟨.command, 4#3, 6, 0x18#8, 0x01#8, false, 0, [0, 0, 1188916, 1236124]⟩ := by decide

theorem test_cmd_bit0 :
    dataAfter .cmdBit0 .command (dataState .command 3#3 s0) =
      some ⟨.command, 4#3, 6, 0x10#8, 0x01#8, false, 0, [0, 0, 1094416, 1141624]⟩ := by decide

theorem test_cmd_bitx :
    dataAfter .cmdBitX .command (dataState .command 3#3 sX) =
      some ⟨.command, 4#3, 6, 0x10#8, 0x09#8, false, 0, [0, 0, 1131208, 1178416]⟩ := by decide

theorem test_cmd_end1 :
    dataAfter .cmdEnd1 .command (dataState .command 7#3 s1) =
      some ⟨.commandInv, 0#3, 6, 0x90#8, 0x01#8, false, 0, [0, 0, 1188916, 1236124]⟩ := by decide

theorem test_cmd_end0 :
    dataAfter .cmdEnd0 .command (dataState .command 7#3 s0) =
      some ⟨.commandInv, 0#3, 6, 0x10#8, 0x01#8, false, 0, [0, 0, 1094416, 1141624]⟩ := by decide

theorem test_cmd_endx :
    dataAfter .cmdEndX .command (dataState .command 7#3 sX) =
      some ⟨.commandInv, 0#3, 6, 0x10#8, 0x81#8, false, 0, [0, 0, 1131208, 1178416]⟩ := by decide

theorem test_cinv_bit1 :
    dataAfter .cinvBit1 .commandInv (dataState .commandInv 3#3 s1) =
      some ⟨.commandInv, 4#3, 6, 0x18#8, 0x01#8, false, 0, [0, 0, 1188916, 1236124]⟩ := by decide

theorem test_cinv_bit0 :
    dataAfter .cinvBit0 .commandInv (dataState .commandInv 3#3 s0) =
      some ⟨.commandInv, 4#3, 6, 0x10#8, 0x01#8, false, 0, [0, 0, 1094416, 1141624]⟩ := by decide

theorem test_cinv_bitx :
    dataAfter .cinvBitX .commandInv (dataState .commandInv 3#3 sX) =
      some ⟨.commandInv, 4#3, 6, 0x10#8, 0x09#8, false, 0, [0, 0, 1131208, 1178416]⟩ := by decide

theorem test_cinv_frame1 :
    dataAfter .cinvFrame1 .commandInv (dataState .commandInv 7#3 s1) =
        some ⟨.leadIn, 0#3, 8, 0x90#8, 0x01#8, false, 1, [0, 0, 0, 0]⟩ ∧
      dataAfter .cinvFrame1 .commandInv (dataState .commandInv 7#3 (s1.take 3)) =
        some ⟨.leadIn, 0#3, 8, 0x90#8, 0x01#8, true, 1, [0, 0, 0, 0]⟩ := by decide

theorem test_cinv_frame0 :
    dataAfter .cinvFrame0 .commandInv (dataState .commandInv 7#3 s0) =
        some ⟨.leadIn, 0#3, 8, 0x10#8, 0x01#8, false, 1, [0, 0, 0, 0]⟩ ∧
      dataAfter .cinvFrame0 .commandInv (dataState .commandInv 7#3 (s0.take 3)) =
        some ⟨.leadIn, 0#3, 8, 0x10#8, 0x01#8, true, 1, [0, 0, 0, 0]⟩ := by decide

theorem test_cinv_framex :
    dataAfter .cinvFrameX .commandInv (dataState .commandInv 7#3 sX) =
        some ⟨.leadIn, 0#3, 8, 0x10#8, 0x81#8, false, 1, [0, 0, 0, 0]⟩ ∧
      dataAfter .cinvFrameX .commandInv (dataState .commandInv 7#3 (sX.take 3)) =
        some ⟨.leadIn, 0#3, 8, 0x10#8, 0x81#8, true, 1, [0, 0, 0, 0]⟩ := by decide

/-! ## Host commands (95_test_vectors.md 2.8 B1, 2.9; one step each) -/

/-- H1, H3: use before `INIT`. -/
theorem test_not_initialised :
    faultOf (step (poweredOn.withCommand 0x02#8 0#32)) = some .notInitialised ∧
      faultOf (step (poweredOn.withCommand 0x10#8 0#32)) = some .notInitialised := by decide

/-- H2: `RDREG period` at power-on. -/
theorem test_rdreg_period_at_power_on :
    (after (step (poweredOn.withCommand 0x1D#8 0#32))).map (·.responses) = some [8400000#32] := by decide

/-- H4, from a state in which every register holds something else. -/
theorem test_init :
    after (exec .init
        { withSlots 3 [7] State.reset with
          state := .command, currentIndex := 5, pulseNumber := 6#3, clearLast := true, initialised := false
          msg := { Message.zero with address := 1#8, repeatCount := 9#32 } }) = some State.reset := by decide

/-- H5 to H8: refused writes. -/
theorem test_wrreg_refusals :
    refusalOf (step (commanded [] 0x20#8 5#32)) = some .illegalRegisterValue ∧
      refusalOf (step (commanded [] 0x2D#8 1#32)) = some .readOnlyRegister ∧
      refusalOf (step (commanded [] 0x21#8 16#32)) = some .illegalRegisterValue ∧
      refusalOf (step (commanded [] 0x2C#8 256#32)) = some .illegalRegisterValue := by decide

/-- H9: reserved command bytes. -/
theorem test_reserved_commands :
    [0x00#8, 0x03#8, 0x30#8, 0xFF#8].all
      (fun b => refusalOf (step (commanded [] b 0#32)) == some .reservedCommand) = true := by decide

/-- H10. -/
theorem test_rdreg_buffer_size :
    (after (step (commanded [] 0x1F#8 0#32))).map (·.responses) = some [16#32] := by decide

/-- H11, its first half. -/
theorem test_wrreg_command :
    (after (step (commanded [] 0x26#8 0x9E#32))).map (fun t => (t.msg, t.inputs)) =
      some ({ Message.zero with command := 0x9E#8 }, Schedule.empty) := by decide

/-- B1: the deferred clear wraps to slot N - 1. -/
theorem test_decode_scrubs :
    (after (exec .decode { withSlots 15 [5000] State.reset with clearLast := true })).map
        (fun t => (t.phase, t.clearLast, t.buf)) = some (.busy, false, []) := by decide

/-- B2: without the flag slot N - 1 stays. -/
theorem test_decode_keeps_the_slot :
    (after (exec .decode (withSlots 15 [5000] State.reset))).map (fun t => (t.phase, t.buf)) =
      some (.busy, [(15, 5000#32)]) := by decide

/-! ## The other agents, the marks, the placing of an instruction -/

/-- R214, R60: a capture lands in a Busy block; a host write waits for the iteration. -/
theorem test_capture_and_waiting_host :
    (after (step { busyAt .leadIn 0#3 0 [] with inputs := only [.capture 3 9#32] })).map (fun t => (t.phase, t.buf)) =
        some (.busy, [(3, 9#32)]) ∧
      (after (step { busyAt .leadIn 0#3 0 [] with inputs := only [.hostWrite 3 9#32] })).map (fun t => (t.phase, t.buf)) =
        some (.idle, []) := by decide

/-- R58 (log 26): a cycle's action moves and goes to the cycle's end. -/
theorem test_cycle_goes_on :
    (after (step { State.reset with inputs := { listed := [], onward := .cycle [.capture 3 9#32, .decoder] } })).map
        (fun t => (t.buf, t.inputs)) =
      some ([(3, 9#32)], { listed := [], onward := .cycle [.decoder, .capture 3 9#32] }) := by decide

/-- R6: a machine built with PERIOD 7 answers 7, whatever configuration the state carries. -/
theorem test_machine_runs_under_its_configuration :
    (after ((machine { Config.initial with period := 7#32 }).step (State.reset.withCommand 0x1D#8 0#32))).map
      (·.responses) = some [7#32] := by decide

/-- R52: an index of N. -/
theorem test_slot_out_of_range :
    refusalOf (step { State.reset with inputs := only [.capture 16 9#32] }) = some .slotOutOfRange := by decide

/-- P7: `INIT` does not clear the fault mark. -/
theorem test_fault_mark_stays :
    markedStep { State.reset with faultMark := some .notInitialised, inputs := only [.command 0x01#8 0#32] } =
      { State.reset with faultMark := some .notInitialised, inputs := only [.command 0x01#8 0#32] } := by decide

/-- R85: the pseudo-instructions expand to accesses and commands. -/
theorem test_pseudo_instructions :
    Input.caps .producer 4 3 [7#32, 8#32] = [.capture 3 7#32, .capture 0 8#32] ∧
      Input.caps .host 4 3 [7#32, 8#32] = [.hostWrite 3 7#32, .hostWrite 0 8#32] ∧
      Input.zeroAll 2 = [.hostWrite 0 0#32, .hostWrite 1 0#32] ∧
      Input.setMsg 1#32 2#32 3#32 256#32 =
        [.command 0x24#8 1#32, .command 0x25#8 2#32, .command 0x26#8 3#32, .command 0x27#8 256#32] ∧
      refusalOf (step (commanded [] 0x27#8 256#32)) = some .illegalRegisterValue := by decide

/-- R51: the two byte orders of a slot, and the end of the buffer. -/
theorem test_platform_bytes :
    (withSlots 0 [0x04030201] State.reset).platformByte 0 = some 1#8 ∧
      (withSlots 0 [0x04030201]
        { State.reset with cfg := { Config.initial with bufferByteOrder := .big } }).platformByte 0 = some 4#8 ∧
      State.reset.platformByte 64 = none := by decide

/-- R83, with REPEAT_BITS = 8. -/
theorem test_payload :
    BitVec.toNat (Message.pack .bits8
      { address := 0x00#8, addressInv := 0xFF#8, command := 0x9E#8, commandInv := 0x61#8, addressError := 1#8
        addressInvError := 2#8, commandError := 3#8, commandInvError := 4#8, repeatCount := 5#32 }) =
      0x0504030201619EFF00 := by decide

/-- A placed transition row is what the very next step runs (log 12). -/
theorem test_placed_rows_run :
    (after (step (State.reset.withFetchWord 8 0x34))).map (fun t => (t.state, t.currentIndex, t.deliveries)) =
        some (.leadIn, 4, [{ Message.zero with commandInv := 0x80#8 }]) ∧
      (after (step (State.reset.withFetchWord 8 0x08))).map (fun t => (t.state, t.currentIndex)) = some (.address, 2) ∧
      (after (step (State.reset.withFetchWord 8 0x40))).map (·.phase) = some .idle ∧
      (after (step (State.reset.withFetchWord 7 0x01))).map (fun t => t.msg.addressError) = some 1#8 := by decide

/-- A placed host command is what the very next step runs (log 13). -/
theorem test_placed_commands_run :
    (after (step (State.reset.withFetchWord 8 0x02))).map (·.phase) = some .busy ∧
      (after (step (State.reset.withFetchWord 8 0x10))).map (·.responses) = some [0#32] ∧
      (after (step (State.reset.withFetchWord 40 0x326))).map (fun t => t.msg.command) = some 3#8 := by decide

/-! ## Witnesses: states and operands that meet the hypotheses of each statement, clause by clause, at boundary values

`Obligations.SampleWordsDecode`, `LeadClassRanges`, `PulseClassRanges`, `GateFormula`, `IterationOperands`,
`DeliverPayloadLayout` and `ResetMeetsTheInvariant` have no hypotheses. -/

/-- An outcome that has a next state. -/
theorem next_of_isSome {o : Host.Outcome State Fault Refusal} (h : (after o).isSome = true) : ∃ t, o = .next t := by
  cases o with
  | next t => exact ⟨t, rfl⟩
  | fault f => cases h
  | refused r => cases h

/-- The four data states. -/
def dataStates : List ProtoState := [.address, .addressInv, .command, .commandInv]

/-- The three data states before the last field. -/
def innerStates : List ProtoState := [.address, .addressInv, .command]

/-- The shortest and the longest `ONE` pulse: (501, 1501) and (599, 1799) microseconds. -/
def onePulses : List (List Nat) := [[1, 42085, 168169], [1, 50400, 201599, 201600]]

/-- The shortest and the longest `ZERO` pulse: (501, 501) and (599, 599) microseconds. -/
def zeroPulses : List (List Nat) := [[1, 42085, 84169], [1, 50400, 100799, 100800]]

/-- A mark of 500 and a mark of 600 microseconds with a good space. -/
def invalidPulses : List (List Nat) := [[1, 42084, 168168], [1, 50401, 176485, 176486]]

/-- The shortest and the longest frame start: (8751, 4251) and (9249, 4749) microseconds. -/
def startPulses : List (List Nat) := [[1, 735085, 1092169], [1, 777000, 1175999, 1176000]]

/-- The shortest and the longest repeat code: (8751, 2251) and (9249, 2749) microseconds. -/
def repeatPulses : List (List Nat) := [[1, 735085, 924169], [1, 777000, 1007999, 1008000]]

/-- A mark of 8750 microseconds, a mark of 9250, and an empty slot at the cursor. -/
def skipPulses : List (List Nat) := [[1, 735084, 1113084], [1, 777001, 1155001], [0, 5, 6]]

theorem witness_CommandBytesDecode :
    registerOrder[(0#4).toNat]? = some .state ∧ registerOrder[(15#4).toNat]? = some .bufferSize ∧
      ∀ b ∈ [0x00#8, 0x03#8, 0x0F#8, 0x30#8, 0xFF#8],
        b ≠ 0x01#8 ∧ b ≠ 0x02#8 ∧ b.toNat / 16 ≠ 1 ∧ b.toNat / 16 ≠ 2 := by decide

theorem witness_SelectorTableCoversLegalSelectors :
    (0x40#7).getLsbD 6 = true ∧ (0x34#7).getLsbD 6 = false ∧ (0x18#7).extractLsb' 3 2 = 3#2 ∧
      5 ≤ ((0x05#7).extractLsb' 0 3).toNat := by decide

theorem witness_DecodeEncodeRoundTrip :
    ∀ i ∈ [Instr.wrreg .bufferSize 0xFFFFFFFF#32, .rdreg .state, .cinvFrame1], i.wf = true := by decide

theorem witness_SelectorFieldsAreComputed :
    (busyAt .leadIn 7#3 0 [1, 735085, 1092169]).snapshot.gate = true ∧
      (busyAt .commandInv 7#3 0 [1, 42085, 168169]).snapshot.gate = true ∧
      (busyAt .commandInv 7#3 0 [1, 42085]).snapshot.gate = false := by decide

theorem witness_ReservedSelectorUnreachable : (busyAt .leadIn 0#3 0 []).faultMark = none := rfl

theorem witness_DurationIsWraparoundDifference :
    (50#32).toNat < (200#32).toNat ∧ (5000#32).toNat ≤ (5000#32).toNat := by decide

theorem witness_DurationIsElapsedTicksModuloPeriod :
    (8399999#32).toNat < (8400000#32).toNat ∧ (0#32).toNat < (8400000#32).toNat := by decide

theorem witness_MicrosecondsTruncate : 0 < (1#32 : Word).toNat ∧ 0 < (84#32 : Word).toNat := by decide

/-- Values for the seven patterns: (0, 1, 1, 0); (1, 0, 1, 0) and (2, 0, 1, 0), on both sides of t0 > t2; (1, 1, 0, 1) and
(1, 2, 0, 1), on both sides of t1 > t3; zeros for the others. -/
theorem witness_GateZeroPatterns :
    ((1#32 : Word) ≠ 0#32 ∧ (2#32 : Word) ≠ 0#32 ∧ (0#32 : Word) = 0#32) ∧
      ¬ (1#32 : Word).toNat < (1#32 : Word).toNat ∧ (1#32 : Word).toNat < (2#32 : Word).toNat := by decide

theorem witness_ReturnEndsTheCall :
    (busyAt .leadIn 0#3 0 [5, 6]).phase = .busy ∧ (busyAt .leadIn 0#3 0 [5, 6]).snapshot.gate = false := by decide

theorem witness_LeadStartBeginsAFrame :
    ∀ p ∈ startPulses, Passing (busyAt .leadIn 3#3 15 p) ∧ (busyAt .leadIn 3#3 15 p).state = .leadIn ∧
      StartPulse (busyAt .leadIn 3#3 15 p) := by
  unfold Passing StartPulse State.Inv; decide

theorem witness_LeadRepeatCountsAndDelivers :
    ∀ p ∈ repeatPulses, ∀ m ∈ [Message.zero, { Message.zero with repeatCount := 255#32 }],
      Passing { busyAt .leadIn 0#3 12 p with msg := m } ∧
        State.state { busyAt .leadIn 0#3 12 p with msg := m } = .leadIn ∧
        RepeatPulse { busyAt .leadIn 0#3 12 p with msg := m } := by
  unfold Passing RepeatPulse State.Inv; decide

theorem witness_LeadSkipPassesOneSlot :
    ∀ p ∈ skipPulses, Passing (busyAt .leadIn 0#3 13 p) ∧ (busyAt .leadIn 0#3 13 p).state = .leadIn ∧
      ¬ StartPulse (busyAt .leadIn 0#3 13 p) ∧ ¬ RepeatPulse (busyAt .leadIn 0#3 13 p) := by
  unfold Passing StartPulse RepeatPulse State.Inv; decide

theorem witness_BitOneSetsTheDataBit :
    ∀ q ∈ dataStates, ∀ n ∈ [0#3, 6#3], ∀ p ∈ onePulses,
      Passing (busyAt q n 0 p) ∧ OnePulse (busyAt q n 0 p) ∧ (busyAt q n 0 p).pulseNumber.toNat ≤ 6 ∧
        (busyAt q n 0 p).state = q := by
  unfold Passing OnePulse State.Inv; decide

theorem witness_BitZeroKeepsTheField :
    ∀ q ∈ dataStates, ∀ n ∈ [0#3, 6#3], ∀ p ∈ zeroPulses,
      Passing (busyAt q n 0 p) ∧ ZeroPulse (busyAt q n 0 p) ∧ (busyAt q n 0 p).pulseNumber.toNat ≤ 6 ∧
        (busyAt q n 0 p).state = q := by
  unfold Passing ZeroPulse State.Inv; decide

theorem witness_BitInvalidSetsTheErrorBit :
    ∀ q ∈ dataStates, ∀ n ∈ [0#3, 6#3], ∀ p ∈ invalidPulses,
      Passing (busyAt q n 0 p) ∧ InvalidPulse (busyAt q n 0 p) ∧ (busyAt q n 0 p).pulseNumber.toNat ≤ 6 ∧
        (busyAt q n 0 p).state = q := by
  unfold Passing InvalidPulse OnePulse ZeroPulse State.Inv; decide

theorem witness_EndOneCompletesTheField :
    ∀ q ∈ innerStates, ∀ p ∈ onePulses,
      Passing (busyAt q 7#3 0 p) ∧ OnePulse (busyAt q 7#3 0 p) ∧ (busyAt q 7#3 0 p).pulseNumber.toNat = 7 ∧
        (busyAt q 7#3 0 p).state = q := by
  unfold Passing OnePulse State.Inv; decide

theorem witness_EndZeroCompletesTheField :
    ∀ q ∈ innerStates, ∀ p ∈ zeroPulses,
      Passing (busyAt q 7#3 0 p) ∧ ZeroPulse (busyAt q 7#3 0 p) ∧ (busyAt q 7#3 0 p).pulseNumber.toNat = 7 ∧
        (busyAt q 7#3 0 p).state = q := by
  unfold Passing ZeroPulse State.Inv; decide

theorem witness_EndInvalidCompletesTheField :
    ∀ q ∈ innerStates, ∀ p ∈ invalidPulses,
      Passing (busyAt q 7#3 0 p) ∧ InvalidPulse (busyAt q 7#3 0 p) ∧ (busyAt q 7#3 0 p).pulseNumber.toNat = 7 ∧
        (busyAt q 7#3 0 p).state = q := by
  unfold Passing InvalidPulse OnePulse ZeroPulse State.Inv; decide

/-- The first pulse has t3 = 0, the second has not. -/
theorem witness_FrameOneDelivers :
    ∀ p ∈ onePulses, Passing (busyAt .commandInv 7#3 14 p) ∧ OnePulse (busyAt .commandInv 7#3 14 p) ∧
      (busyAt .commandInv 7#3 14 p).pulseNumber.toNat = 7 ∧ (busyAt .commandInv 7#3 14 p).state = .commandInv := by
  unfold Passing OnePulse State.Inv; decide

/-- The first pulse has t3 = 0, the second has not. -/
theorem witness_FrameZeroDelivers :
    ∀ p ∈ zeroPulses, Passing (busyAt .commandInv 7#3 14 p) ∧ ZeroPulse (busyAt .commandInv 7#3 14 p) ∧
      (busyAt .commandInv 7#3 14 p).pulseNumber.toNat = 7 ∧ (busyAt .commandInv 7#3 14 p).state = .commandInv := by
  unfold Passing ZeroPulse State.Inv; decide

/-- The first pulse has t3 = 0, the second has not. -/
theorem witness_FrameInvalidDelivers :
    ∀ p ∈ invalidPulses, Passing (busyAt .commandInv 7#3 14 p) ∧ InvalidPulse (busyAt .commandInv 7#3 14 p) ∧
      (busyAt .commandInv 7#3 14 p).pulseNumber.toNat = 7 ∧ (busyAt .commandInv 7#3 14 p).state = .commandInv := by
  unfold Passing InvalidPulse OnePulse ZeroPulse State.Inv; decide

theorem witness_InitLeavesTheResetValues : State.reset.phase = .idle ∧ poweredOn.phase = .idle := ⟨rfl, rfl⟩

/-- The flag clear, and set with the cursor at 0 and at N - 1. -/
theorem witness_DecodeScrubsAndStartsTheCall :
    (poweredOn.Inv ∧ poweredOn.phase = .idle ∧ poweredOn.initialised = false) ∧
      ∀ s ∈ [State.reset, { State.reset with clearLast := true },
          { withSlots 14 [5] State.reset with clearLast := true, currentIndex := 15 }],
        s.Inv ∧ s.phase = .idle ∧ s.initialised = true := by
  unfold State.Inv; decide

/-- An initialised machine, one that is not, and one with N = 2^32. -/
theorem witness_RdregAnswersTheRegister :
    (State.reset.Inv ∧ State.reset.phase = .idle ∧ State.reset.initialised = true) ∧
      (poweredOn.Inv ∧ poweredOn.phase = .idle ∧ poweredOn.initialised = false ∧ ConfigReg .period ∧ ¬ ConfigReg .repeatCount) ∧
      State.Inv { State.reset with cfg := { Config.initial with bufferSize := 2 ^ 32 } } := by
  unfold State.Inv ConfigReg; decide

/-- For each writable register the least and the greatest legal value. -/
theorem witness_WrregWritesALegalValue :
    (State.reset.Inv ∧ State.reset.phase = .idle ∧ State.reset.initialised = true) ∧
      LegalValue State.reset .state 0 ∧ LegalValue State.reset .state 4 ∧
      LegalValue State.reset .currentIndex 0 ∧ LegalValue State.reset .currentIndex 15 ∧
      LegalValue State.reset .pulseNumber 0 ∧ LegalValue State.reset .pulseNumber 7 ∧
      LegalValue State.reset .clearLast 0 ∧ LegalValue State.reset .clearLast 1 ∧
      LegalValue State.reset .address 255 ∧ LegalValue State.reset .commandInvError 255 ∧
      LegalValue State.reset .repeatCount 255 := by
  unfold State.Inv LegalValue; decide

/-- Not initialised; a read-only register; for a writable one the least illegal value. -/
theorem witness_WrregStopsOtherwise :
    (poweredOn.Inv ∧ poweredOn.phase = .idle ∧ poweredOn.initialised = false) ∧
      (State.reset.Inv ∧ State.reset.phase = .idle ∧ State.reset.initialised = true) ∧
      (ConfigReg .period ∧ ConfigReg .clockSpeed ∧ ConfigReg .bufferSize ∧ ¬ ConfigReg .repeatCount) ∧
      ¬ LegalValue State.reset .state 5 ∧ ¬ LegalValue State.reset .currentIndex 16 ∧
      ¬ LegalValue State.reset .pulseNumber 8 ∧ ¬ LegalValue State.reset .clearLast 2 ∧
      ¬ LegalValue State.reset .address 256 ∧ ¬ LegalValue State.reset .repeatCount 256 := by
  unfold State.Inv LegalValue ConfigReg; decide

theorem witness_PowerOnAcceptsOnlyInitAndConfigReads :
    poweredOn.PowerOn ∧ ConfigReg .period ∧ ¬ ConfigReg .state := by
  unfold ConfigReg; decide

theorem witness_ReservedCommandIsRefused :
    ∀ b ∈ [0x00#8, 0x03#8, 0x30#8, 0xFF#8], ∀ s ∈ [commanded [] b 0#32, poweredOn.withCommand b 0#32],
      s.Unmarked ∧ s.cfg.legal ∧ s.phase = .idle ∧ s.inputs.next = some (.command b 0#32, Schedule.empty) ∧
        b ≠ 0x01#8 ∧ b ≠ 0x02#8 ∧ b.toNat / 16 ≠ 1 ∧ b.toNat / 16 ≠ 2 := by decide

theorem witness_MeaningsStopOutsideTheirTurn :
    (busyAt .leadIn 0#3 0 []).phase = .busy ∧ decode (.selector 0x08#7) = .instr .leadStart ∧
      ¬ (busyAt .leadIn 0#3 0 []).Selects .leadStart ∧ ¬ State.reset.Selects .leadStart := by decide

theorem witness_StepRunsTheDecodedInstruction :
    ((commanded [] 0x02#8 0#32).Unmarked ∧ (commanded [] 0x02#8 0#32).cfg.legal ∧ (commanded [] 0x02#8 0#32).phase = .idle ∧
        (commanded [] 0x02#8 0#32).inputs.next = some (.command 0x02#8 0#32, Schedule.empty) ∧ decode (.command 0x02#8 0#32) = .instr .decode) ∧
      ((busyAt .leadIn 0#3 0 [5]).phase = .busy ∧
        decode (.selector (busyAt .leadIn 0#3 0 [5]).selector) = .instr .ret ∧ LeavesTheMove (busyAt .leadIn 0#3 0 [5])) ∧
      ((State.reset.withSelector 0x08#7).phase = .busy ∧
        decode (.selector (State.reset.withSelector 0x08#7).selector) = .instr .leadStart ∧
        (State.reset.withSelector 0x08#7).inputs.next = some (.decoder, Schedule.empty)) := by
  refine ⟨by decide, ⟨by decide, by decide, ?_⟩, by decide⟩
  unfold LeavesTheMove
  have hn : (busyAt .leadIn 0#3 0 [5]).inputs.next = none := rfl
  exact ⟨fun _ _ _ h => (nomatch hn.symm.trans h), fun _ h => (nomatch hn.symm.trans h)⟩

/-- A capture in either phase, a host write and a host read while Idle, before and after the first `INIT`, at the last slot
and past it. -/
theorem witness_OutsideAccessesReachOneSlot :
    (∀ i ∈ [15, 16], ∀ e ∈ [Input.capture i 9#32, .hostWrite i 9#32, .hostRead i], ∀ s ∈ [State.reset, poweredOn],
      State.Inv { s with inputs := only [e] } ∧ State.Unmarked { s with inputs := only [e] } ∧ s.phase = .idle ∧
        (only [e]).next = some (e, Schedule.empty)) ∧
      (∀ i ∈ [15, 16],
        let s := { busyAt .leadIn 0#3 0 [5] with inputs := only [.capture i 9#32] }
        s.Inv ∧ s.Unmarked ∧ s.inputs.next = some (.capture i 9#32, Schedule.empty)) ∧
      15 < Config.initial.bufferSize ∧ Config.initial.bufferSize ≤ 16 := by
  unfold State.Inv; decide

theorem witness_IdleBlockWithoutInputRests :
    State.reset.Unmarked ∧ State.reset.cfg.legal ∧ State.reset.phase = .idle ∧ State.reset.inputs.next = none := by decide

theorem witness_MarksAreNeverCleared :
    (∃ s : State, s.faultMark = some .notInitialised) ∧
      (∃ s : State, s.faultMark = none ∧ s.refusalMark = some .reservedCommand) ∧
      faultOf (step (poweredOn.withCommand 0x02#8 0#32)) = some .notInitialised ∧
      refusalOf (step (commanded [] 0x03#8 0#32)) = some .reservedCommand :=
  ⟨⟨{ State.reset with faultMark := some .notInitialised }, rfl⟩,
    ⟨{ State.reset with refusalMark := some .reservedCommand }, rfl, rfl⟩, by decide, by decide⟩

/-- A row that wraps, a command, a capture. -/
theorem witness_EveryStepKeepsTheInvariant :
    ∀ s ∈ [busyAt .commandInv 7#3 14 s1, commanded [5] 0x02#8 0#32,
        { busyAt .leadIn 0#3 0 [5] with inputs := only [.capture 15 9#32] }],
      s.Inv ∧ ∃ t, step s = .next t := by
  have h : ∀ s ∈ [busyAt .commandInv 7#3 14 s1, commanded [5] 0x02#8 0#32,
      { busyAt .leadIn 0#3 0 [5] with inputs := only [.capture 15 9#32] }],
      s.Inv ∧ (after (step s)).isSome = true := by
    unfold State.Inv; decide
  exact fun s hs => ⟨(h s hs).1, next_of_isSome (h s hs).2⟩

theorem witness_ConfigurationNeverChanges : ∃ t, step (busyAt .commandInv 7#3 14 s1) = .next t :=
  next_of_isSome (by decide)

theorem witness_DeliveriesOnlyByRepeatAndFrame :
    (∃ t, exec .leadRepeat (busyAt .leadIn 0#3 12 [1, 735085, 924169]) = .next t) ∧
      (FrameRow .cinvFrame1 ∧ ∃ t, exec .cinvFrame1 (busyAt .commandInv 7#3 14 s1) = .next t) ∧
      (¬ FrameRow .ret ∧ ∃ t, exec .ret (busyAt .leadIn 0#3 0 [5]) = .next t) :=
  ⟨next_of_isSome (by decide), ⟨by unfold FrameRow; decide, next_of_isSome (by decide)⟩,
    ⟨by unfold FrameRow; decide, next_of_isSome (by decide)⟩⟩

theorem witness_InstructionsWriteOnlyZeros :
    (busyAt .commandInv 7#3 14 s1).Inv ∧ ∃ t, exec .cinvFrame1 (busyAt .commandInv 7#3 14 s1) = .next t :=
  ⟨by unfold State.Inv; decide, next_of_isSome (by decide)⟩

/-- One step for each consumption count: 0, 1, 4, 2, and a command that leaves the cursor. -/
theorem witness_OnlyConsumptionMovesTheCursor :
    (∀ s ∈ [busyAt .leadIn 0#3 0 [5], busyAt .leadIn 0#3 13 [0, 5, 6], busyAt .commandInv 7#3 14 s1,
        busyAt .address 0#3 15 s1, State.reset], s.Inv) ∧
      (∃ t, exec .ret (busyAt .leadIn 0#3 0 [5]) = .next t) ∧
      (∃ t, exec .leadSkip (busyAt .leadIn 0#3 13 [0, 5, 6]) = .next t) ∧
      (∃ t, exec .cinvFrame1 (busyAt .commandInv 7#3 14 s1) = .next t) ∧
      (edge .addrBit1 = some (.address, .address) ∧ ∃ t, exec .addrBit1 (busyAt .address 0#3 15 s1) = .next t) ∧
      (∃ t, exec (.wrreg .state 4#32) State.reset = .next t) :=
  ⟨by unfold State.Inv; decide, next_of_isSome (by decide), next_of_isSome (by decide), next_of_isSome (by decide),
    ⟨rfl, next_of_isSome (by decide)⟩, next_of_isSome (by decide)⟩

/-- Each of the four writers changes the flag somewhere. -/
theorem witness_ClearLastHasFourWriters :
    ∀ p ∈ [(Instr.cinvFrame1, busyAt .commandInv 7#3 14 (s1.take 3)), (.decode, { State.reset with clearLast := true }),
        (.init, { State.reset with clearLast := true }), (.wrreg .clearLast 1#32, State.reset)],
      (after (exec p.1 p.2)).map (·.clearLast) = some (!p.2.clearLast) := by decide

theorem witness_NextStateTable :
    (edge .cinvFrame1 = some (.commandInv, .leadIn) ∧ ∃ t, exec .cinvFrame1 (busyAt .commandInv 7#3 14 s1) = .next t) ∧
      ∃ t, exec .ret (busyAt .leadIn 0#3 0 [5]) = .next t :=
  ⟨⟨rfl, next_of_isSome (by decide)⟩, next_of_isSome (by decide)⟩

theorem witness_LeadInHasPulseNumberZero :
    (∀ d, Instr.cinvFrame1 ≠ .wrreg .pulseNumber d) ∧ (∀ d, Instr.cinvFrame1 ≠ .wrreg .state d) ∧
      ((busyAt .commandInv 7#3 14 s1).state = .leadIn → (busyAt .commandInv 7#3 14 s1).pulseNumber = 0#3) ∧
      (after (exec .cinvFrame1 (busyAt .commandInv 7#3 14 s1))).map (·.state) = some .leadIn :=
  ⟨fun _ h => (by cases h), fun _ h => (by cases h), fun h => absurd h (by decide), by decide⟩

theorem witness_BuildRefusesIllegalConfigurations :
    build goodRequest = .ok Config.initial ∧
      build { goodRequest with bufferSize := 2 ^ 32 + 1 } = .error .illegalConfiguration ∧
      goodRequest.messageId = { goodRequest with bufferId := 1 }.messageId := ⟨rfl, rfl, rfl⟩

/-- E7's second row, and one edge with the cursor at N - 1. -/
theorem witness_InsufficientDataIsIdempotent :
    ∀ s ∈ [commanded [1705052, 2462448] 0x02#8 0#32,
        { withSlots 15 [1705052] State.reset with currentIndex := 15, inputs := only [.command 0x02#8 0#32] }],
      s.Inv ∧ s.Unmarked ∧ s.phase = .idle ∧ s.initialised = true ∧ s.clearLast = false ∧ 4 ≤ s.cfg.bufferSize ∧
        s.inputs.next = some (.command 0x02#8 0#32, Schedule.empty) ∧ Schedule.empty.next = none ∧
        ∀ a, a ≠ s.currentIndex % s.cfg.bufferSize → a ≠ (s.currentIndex + 1) % s.cfg.bufferSize → s.buf.read a = 0#32 := by
  intro s hs
  rcases List.mem_cons.mp hs with rfl | hs
  · refine ⟨by unfold State.Inv; decide, by decide, rfl, rfl, rfl, by decide, rfl, rfl, fun a h0 h1 => ?_⟩
    have e0 : (0 : Nat) ≠ a := fun e => h0 (by rw [← e]; rfl)
    have e1 : (1 : Nat) ≠ a := fun e => h1 (by rw [← e]; rfl)
    change Buffer.read [(0, 1705052#32), (1, 2462448#32)] a = 0#32
    simp [Buffer.read, e0, e1]
  · obtain rfl := List.mem_singleton.mp hs
    refine ⟨by unfold State.Inv; decide, by decide, rfl, rfl, rfl, by decide, rfl, rfl, fun a h0 _ => ?_⟩
    have e0 : (15 : Nat) ≠ a := fun e => h0 (by rw [← e]; rfl)
    change Buffer.read [(15, 1705052#32)] a = 0#32
    simp [Buffer.read, e0]

/-- E2's buffer, and an empty one. -/
theorem witness_QuietCallTerminates :
    ∀ s ∈ [busyAt .leadIn 0#3 0 [705052, 2462448, 3844152], busyAt .leadIn 0#3 0 []],
      s.Inv ∧ s.Unmarked ∧ s.phase = .busy ∧ s.inputs.next = none := by
  unfold State.Inv; decide
theorem witness_CallNeedNotEnd : Config.initial.legal ∧ 4 ≤ Config.initial.bufferSize := by decide

/-- A late capture, a waiting host, and nothing at all. -/
theorem witness_CallEndsOnceTheProducerStops :
    ∀ l ∈ [[Input.capture 15 9#32, .decoder, .hostRead 15], []],
      let s := { busyAt .leadIn 0#3 0 [5, 6] with inputs := only l }
      s.Inv ∧ s.Unmarked ∧ s.phase = .busy ∧ s.inputs.onward = .quiet ∧
        ∀ e ∈ s.inputs.listed, e.wf s.cfg.bufferSize = true := by
  unfold State.Inv; decide

/-- A step under a machine's configuration, and a request that builds one. -/
theorem witness_MachineTakesItsConfiguration :
    (∃ t : State, (machine Config.initial).step State.reset = .next t) ∧ build goodRequest = .ok Config.initial :=
  ⟨⟨State.reset, rfl⟩, rfl⟩

/-- Edges 0 to 16 of P2. -/
def frameEdges0 : List Nat :=
  [1705052, 2461052, 2839052, 2886260, 2933468, 2980676, 3027884, 3075092, 3122300,
   3169508, 3216716, 3263924, 3311132, 3358340, 3405548, 3452756, 3499964]

/-- Edges 17 to 33 of P2. -/
def frameEdges1 : List Nat :=
  [3547172, 3594380, 3641588, 3783296, 3830504, 3972212, 4019420, 4161128, 4208336,
   4350044, 4397252, 4538960, 4586168, 4727876, 4775084, 4916792, 4964000]

/-- Edges 34 to 50 of P2. -/
def frameEdges2 : List Nat :=
  [5105708, 5152916, 5200124, 5247332, 5389040, 5436248, 5577956, 5625164, 5766872,
   5814080, 5955788, 6002996, 6050204, 6097412, 6144620, 6191828, 6333536]

/-- Edges 51 to 67 of P2. -/
def frameEdges3 : List Nat :=
  [6380744, 6522452, 6569660, 6616868, 6664076, 6711284, 6758492, 6805700, 6852908,
   6900116, 6947324, 7089032, 7136240, 7277948, 7325156, 7372364, 7419572]

/-- The 68 edges of program P2: address 0x00, 0xFF, command 0x9E, 0x61. -/
def frameEdges : List Nat :=
  frameEdges0 ++ (frameEdges1 ++ (frameEdges2 ++ frameEdges3))

/-- Edge k of P2. -/
def frameEdge (k : Nat) : Word :=
  BitVec.ofNat 32 (frameEdges.getD k 0)

/-- P2's frame in a buffer of 128 slots, in the middle of its call. -/
def frameState : State :=
  { busyAt .leadIn 0#3 0 [] with
    cfg := { Config.initial with bufferSize := 128 }
    buf := frameEdges.zipIdx.map fun p => (p.2, BitVec.ofNat 32 p.1) }

theorem frame_edges_are_held : frameState.HoldsEdges frameState.currentIndex 68 frameEdge := by decide

theorem frame_data_is_in_range :
    ∀ j < 32, 500 < edgeMark frameState.cfg frameEdge (2 * j + 2) ∧ edgeMark frameState.cfg frameEdge (2 * j + 2) < 600 ∧
      (if (0x619EFF00#32).getLsbD j then
        1500 < edgeMark frameState.cfg frameEdge (2 * j + 3) ∧ edgeMark frameState.cfg frameEdge (2 * j + 3) < 1800
       else 500 < edgeMark frameState.cfg frameEdge (2 * j + 3) ∧ edgeMark frameState.cfg frameEdge (2 * j + 3) < 600) := by
  decide

theorem witness_FullFrameRoundTrip :
    frameState.Inv ∧ frameState.Unmarked ∧ frameState.phase = .busy ∧ frameState.inputs.next = none ∧ frameState.state = .leadIn ∧
      68 ≤ frameState.cfg.bufferSize ∧ frameState.HoldsEdges frameState.currentIndex 68 frameEdge ∧
      8750 < edgeMark frameState.cfg frameEdge 0 ∧ edgeMark frameState.cfg frameEdge 0 < 9250 ∧
      4250 < edgeMark frameState.cfg frameEdge 1 ∧ edgeMark frameState.cfg frameEdge 1 < 4750 ∧
      ∀ j < 32, 500 < edgeMark frameState.cfg frameEdge (2 * j + 2) ∧ edgeMark frameState.cfg frameEdge (2 * j + 2) < 600 ∧
        (if (0x619EFF00#32).getLsbD j then
          1500 < edgeMark frameState.cfg frameEdge (2 * j + 3) ∧ edgeMark frameState.cfg frameEdge (2 * j + 3) < 1800
         else 500 < edgeMark frameState.cfg frameEdge (2 * j + 3) ∧ edgeMark frameState.cfg frameEdge (2 * j + 3) < 600) :=
  ⟨by unfold State.Inv; decide, by decide, rfl, rfl, rfl, by decide, frame_edges_are_held, by decide, by decide, by decide,
    by decide, frame_data_is_in_range⟩

end Sys2Proof.Tests
end

section
/-! # Scope: how a machine is built, and the configuration it runs under

What `build` answers (00_scope.md R6, 60_exceptions.md R212), and that no operation and no step writes the
configuration (R6, 10_state.md R27). -/

namespace Sys2Proof.Machine

variable {s t : State} {i : Instr} {r q : BuildRequest} {c : Config}

/-! ## What `build` answers -/

theorem repeatBitsOf_width (b : RepeatBits) : repeatBitsOf b.width = some b := by
  cases b <;> rfl

theorem width_of_repeatBitsOf {n : Nat} {b : RepeatBits} (h : repeatBitsOf n = some b) : b.width = n := by
  unfold repeatBitsOf at h
  split_ifs at h with h8 h16 h32
  all_goals
    cases h
    exact Eq.symm ‹_›

theorem RepeatBits.width_injective {b b' : RepeatBits} (h : b.width = b'.width) : b = b' :=
  Option.some.inj (by rw [← repeatBitsOf_width b, h, repeatBitsOf_width])

/-- The legal values of REPEAT_BITS (00_scope.md R6). -/
theorem RepeatBits.exists_width_eq_iff {n : Nat} : (∃ b : RepeatBits, b.width = n) ↔ n = 8 ∨ n = 16 ∨ n = 32 := by
  constructor
  · rintro ⟨_ | _ | _, rfl⟩ <;> simp [RepeatBits.width]
  · rintro (rfl | rfl | rfl)
    exacts [⟨.bits8, rfl⟩, ⟨.bits16, rfl⟩, ⟨.bits32, rfl⟩]

/-- The ranges that R6 gives the numbers of a request, REPEAT_BITS apart. -/
def BuildRequest.InRange (r : BuildRequest) : Prop :=
  r.period < 2 ^ 32 ∧ 0 < r.clockSpeed ∧ r.clockSpeed < 2 ^ 32 ∧ 0 < r.bufferSize ∧ r.bufferSize ≤ 2 ^ 32

/-- The configuration that holds the numbers of a request. -/
def BuildRequest.config (r : BuildRequest) (b : RepeatBits) : Config :=
  { period := BitVec.ofNat 32 r.period
    clockSpeed := BitVec.ofNat 32 r.clockSpeed
    bufferSize := r.bufferSize
    repeatBits := b
    bufferByteOrder := r.bufferByteOrder
    bufferBase := r.bufferBase }

/-- `build` either answers the request's numbers, all of them in range, or refuses one that is out of range. -/
theorem build_cases (r : BuildRequest) :
    (∃ b : RepeatBits, b.width = r.repeatBits ∧ r.InRange ∧ build r = .ok (r.config b)) ∨
    (¬ (r.InRange ∧ ∃ b : RepeatBits, b.width = r.repeatBits) ∧ build r = .error .illegalConfiguration) := by
  unfold build
  cases hb : repeatBitsOf r.repeatBits with
  | none =>
    refine .inr ⟨fun ⟨_, b, hw⟩ => ?_, rfl⟩
    rw [← hw, repeatBitsOf_width] at hb
    cases hb
  | some b =>
    by_cases hr : r.InRange
    · exact .inl ⟨b, width_of_repeatBitsOf hb, hr, if_pos hr⟩
    · exact .inr ⟨fun h => hr h.1, if_neg hr⟩

theorem build_eq_ok_iff :
    build r = .ok c ↔ r.InRange ∧ ∃ b : RepeatBits, b.width = r.repeatBits ∧ r.config b = c := by
  rcases build_cases r with ⟨b, hw, hr, h⟩ | ⟨hn, h⟩
  · rw [h, Except.ok.injEq]
    refine ⟨fun e => ⟨hr, b, hw, e⟩, ?_⟩
    rintro ⟨-, b', hw', rfl⟩
    rw [RepeatBits.width_injective (hw.trans hw'.symm)]
  · rw [h]
    exact ⟨nofun, fun ⟨hr, b, hw, _⟩ => absurd ⟨hr, b, hw⟩ hn⟩

theorem exists_build_eq_ok_iff :
    (∃ c, build r = .ok c) ↔ r.InRange ∧ (r.repeatBits = 8 ∨ r.repeatBits = 16 ∨ r.repeatBits = 32) := by
  rw [← RepeatBits.exists_width_eq_iff]
  constructor
  · rintro ⟨c, h⟩
    obtain ⟨hr, b, hw, -⟩ := build_eq_ok_iff.mp h
    exact ⟨hr, b, hw⟩
  · rintro ⟨hr, b, hw⟩
    exact ⟨r.config b, build_eq_ok_iff.mpr ⟨hr, b, hw, rfl⟩⟩

theorem build_error (r : BuildRequest) {e : Refusal} (h : build r = .error e) : e = .illegalConfiguration := by
  rcases build_cases r with ⟨b, -, -, hok⟩ | ⟨-, herr⟩
  · cases hok.symm.trans h
  · cases herr.symm.trans h
    rfl

/-- Numbers in range are held as they are: none is cut to 32 bits. -/
theorem BuildRequest.InRange.config_holds (h : r.InRange) (b : RepeatBits) :
    (r.config b).legal ∧ (r.config b).period.toNat = r.period ∧ (r.config b).clockSpeed.toNat = r.clockSpeed ∧
      (r.config b).bufferSize = r.bufferSize := by
  obtain ⟨hp, hc0, hc, hn0, hn⟩ := h
  have hclock : (r.config b).clockSpeed.toNat = r.clockSpeed := Nat.mod_eq_of_lt hc
  exact ⟨⟨hclock ▸ hc0, hn0, hn⟩, Nat.mod_eq_of_lt hp, hclock, rfl⟩

theorem legal_of_build (h : build r = .ok c) : c.legal := by
  obtain ⟨hr, b, -, rfl⟩ := build_eq_ok_iff.mp h
  exact (hr.config_holds b).1

/-- R222: a pair that shares is refused whatever its configurations are (log 27). -/
theorem buildAll_pair_of_shared (h : r.bufferId = q.bufferId ∨ r.messageId = q.messageId) :
    buildAll [r, q] = .error .sharedInstance := by
  have hany : [q].any (fun p => p.bufferId == r.bufferId || p.messageId == r.messageId) = true := by
    rcases h with h | h <;> simp [h]
  exact if_pos hany

/-- Settles O50: `build` answers exactly the numbers in range and holds them, and a pair that shares is refused. -/
theorem buildRefusesIllegalConfigurations : Obligations.BuildRefusesIllegalConfigurations := by
  refine ⟨fun r => ⟨?_, fun c h => ?_, fun e => build_error r⟩, fun r q => buildAll_pair_of_shared⟩
  · rw [exists_build_eq_ok_iff]
    simp only [BuildRequest.InRange, Nat.succ_le_iff, and_assoc]
  · obtain ⟨hr, b, hw, rfl⟩ := build_eq_ok_iff.mp h
    obtain ⟨hlegal, hperiod, hclock, hsize⟩ := hr.config_holds b
    exact ⟨hlegal, hperiod, hclock, hsize, hw⟩

/-! ## The configuration never changes -/

@[simp] theorem State.deferredClear_cfg (s : State) : s.deferredClear.cfg = s.cfg := by
  rw [s.deferredClear_frame]

@[simp] theorem State.writeReg_cfg (s : State) (d : Word) (r : Reg) : (s.writeReg d r).cfg = s.cfg := by
  cases r <;> rfl

@[simp] theorem rowEffect_cfg (i : Instr) (s : State) : (rowEffect i s).cfg = s.cfg := by
  cases i <;> rfl

theorem exec_cfg (h : exec i s = .next t) : t.cfg = s.cfg := by
  rcases exec_cases h with ⟨-, -, rfl⟩ | ⟨-, -, rfl⟩ | ⟨-, -, -, rfl⟩ | ⟨r, -, -, rfl⟩ | ⟨r, d, -, -, -, rfl⟩
  · exact rowEffect_cfg i s
  · rfl
  · exact s.deferredClear_cfg
  · rfl
  · exact s.writeReg_cfg d r

/-- No step writes the configuration (10_state.md R27). -/
theorem step_cfg (h : step s = .next t) : t.cfg = s.cfg := by
  obtain ⟨-, -, -, l, hcases⟩ := step_cases h
  rcases hcases with ⟨i, -, hx⟩ | ⟨-, i, cmd, data, -, hx⟩ | ⟨k, v, hw⟩ | ⟨-, k, hr⟩ | ⟨-, rfl⟩
  · exact exec_cfg (s := { s with inputs := l }) hx
  · exact exec_cfg (s := { s with inputs := l }) hx
  · obtain ⟨-, rfl⟩ := writeSlot_eq_next_iff.mp hw
    rfl
  · obtain ⟨-, rfl⟩ := readSlot_eq_next_iff.mp hr
    rfl
  · rfl

/-! ## The machine of a configuration -/

theorem machine_step_cfg (h : (machine c).step s = .next t) : t.cfg = c :=
  step_cfg (s := { s with cfg := c }) h

theorem buildMachine_of_build (h : build r = .ok c) : buildMachine r = .ok (machine c) := by
  rw [buildMachine, h]
  rfl

/-- The state that `INIT` leaves under a legal configuration meets the invariant. -/
theorem State.inv_resetWith (h : c.legal) : (State.resetWith c).Inv :=
  ⟨h, rfl, nofun, fun _ => ⟨h.2.1, Nat.two_pow_pos _⟩⟩

/-- Settles O57: a step of `machine c` is the host's step on the state that carries c, and no step writes the
configuration. -/
theorem machineTakesItsConfiguration : Obligations.MachineTakesItsConfiguration := by
  refine ⟨fun c d s t => ⟨rfl, machine_step_cfg, rfl⟩, fun r c h => ?_⟩
  exact ⟨buildMachine_of_build h, State.inv_resetWith (legal_of_build h), ⟨rfl, rfl⟩, rfl, rfl, rfl⟩

end Sys2Proof.Machine
end

section
/-! # State: the invariant, the flag, the pulse number, power-on and reset

The invariant of 10_state.md R32 is kept by every operation, so by every row, command and access, so by every step.
Then who writes `R.clearLast` (R24), when `R.pulseNumber` is 0 (R32), and what a machine accepts before `INIT` (R34). -/

namespace Sys2Proof.Machine

open Sys2Proof.Claims

variable {s t : State} {i : Instr} {r : Reg} {d : Word}

/-! ## The parts of the invariant -/

theorem State.Inv.legal (h : s.Inv) : s.cfg.legal := h.1

theorem State.Inv.bufferSize_pos (h : s.Inv) : 0 < s.cfg.bufferSize := h.legal.2.1

theorem State.Inv.buf_wf (h : s.Inv) : s.buf.wf s.cfg.bufferSize = true := h.2.1

theorem State.Inv.initialised_of_busy (h : s.Inv) (hp : s.phase = .busy) : s.initialised = true := h.2.2.1 hp

theorem State.Inv.currentIndex_lt (h : s.Inv) (hi : s.initialised = true) : s.currentIndex < s.cfg.bufferSize :=
  (h.2.2.2 hi).1

theorem State.Inv.repeatCount_lt (h : s.Inv) (hi : s.initialised = true) :
    s.msg.repeatCount.toNat < 2 ^ s.cfg.repeatBits.width :=
  (h.2.2.2 hi).2

/-! ## Every operation keeps the invariant -/

/-- A new buffer need only be in canonical form. -/
theorem State.Inv.with_buf (h : s.Inv) {b : Buffer} (hb : b.wf s.cfg.bufferSize = true) :
    ({ s with buf := b } : State).Inv :=
  ⟨h.legal, hb, h.initialised_of_busy, fun hi => ⟨h.currentIndex_lt hi, h.repeatCount_lt hi⟩⟩

/-- A new cursor need only be below N. -/
theorem State.Inv.with_currentIndex (h : s.Inv) {c : Nat} (hc : c < s.cfg.bufferSize) :
    ({ s with currentIndex := c } : State).Inv :=
  ⟨h.legal, h.buf_wf, h.initialised_of_busy, fun hi => ⟨hc, h.repeatCount_lt hi⟩⟩

/-- A new Message need only keep the repeat counter in its width. -/
theorem State.Inv.with_msg (h : s.Inv) {m : Message}
    (hm : s.initialised = true → m.repeatCount.toNat < 2 ^ s.cfg.repeatBits.width) :
    ({ s with msg := m } : State).Inv :=
  ⟨h.legal, h.buf_wf, h.initialised_of_busy, fun hi => ⟨h.currentIndex_lt hi, hm hi⟩⟩

/-- A call may run on an initialised machine. -/
theorem State.Inv.enterCall (h : s.Inv) (hi : s.initialised = true) : ({ s with phase := .busy } : State).Inv :=
  ⟨h.legal, h.buf_wf, fun _ => hi, fun hi => ⟨h.currentIndex_lt hi, h.repeatCount_lt hi⟩⟩

theorem State.Inv.leaveCall (h : s.Inv) : ({ s with phase := .idle } : State).Inv :=
  ⟨h.legal, h.buf_wf, nofun, fun hi => ⟨h.currentIndex_lt hi, h.repeatCount_lt hi⟩⟩

/-- The invariant does not look at the schedule. -/
theorem State.Inv.with_inputs (h : s.Inv) (l : Schedule) : ({ s with inputs := l } : State).Inv := h

/-- Consumption zeroes slots and brings the cursor below N (43_buffer.md R174). -/
theorem State.Inv.consume (h : s.Inv) (k : Nat) : (s.consume k).Inv := by
  have hn := h.bufferSize_pos
  have hzeroed := h.with_buf (Buffer.wf_zeroRun h.buf_wf hn s.currentIndex k)
  exact hzeroed.with_currentIndex (Nat.mod_lt _ hn)

theorem State.Inv.orData (h : s.Inv) (f : DataField) (n : Nat) : (s.orData f n).Inv :=
  h.with_msg fun hi => by simpa using h.repeatCount_lt hi

theorem State.Inv.orError (h : s.Inv) (f : DataField) (n : Nat) : (s.orError f n).Inv :=
  h.with_msg fun hi => by simpa using h.repeatCount_lt hi

theorem State.Inv.clearMessage (h : s.Inv) : s.clearMessage.Inv :=
  h.with_msg fun _ => Nat.two_pow_pos _

/-- The counter wraps in its width (40_leadin.md R102). -/
theorem State.Inv.countRepeat (h : s.Inv) : s.countRepeat.Inv := by
  refine h.with_msg fun _ => ?_
  calc (BitVec.ofNat 32 ((s.msg.repeatCount.toNat + 1) % 2 ^ s.cfg.repeatBits.width)).toNat
      ≤ (s.msg.repeatCount.toNat + 1) % 2 ^ s.cfg.repeatBits.width := Nat.mod_le _ _
    _ < 2 ^ s.cfg.repeatBits.width := Nat.mod_lt _ (Nat.two_pow_pos _)

theorem State.Inv.deliver (h : s.Inv) : s.deliver.Inv := h

theorem State.Inv.advancePulse (h : s.Inv) : s.advancePulse.Inv := h

theorem State.Inv.completeField (h : s.Inv) (q : ProtoState) : (s.completeField q).Inv := h

theorem State.Inv.requestClear (h : s.Inv) (v : Word) : (s.requestClear v).Inv := h

theorem State.Inv.respond (h : s.Inv) (w : Word) : (s.respond w).Inv := h

theorem State.slotBehind_lt (hn : 0 < s.cfg.bufferSize) : s.slotBehind < s.cfg.bufferSize :=
  Nat.mod_lt _ hn

theorem State.Inv.deferredClear (h : s.Inv) : s.deferredClear.Inv := by
  cases hc : s.clearLast with
  | false => rwa [State.deferredClear_of_clear hc]
  | true =>
    rw [State.deferredClear_of_set hc]
    exact h.with_buf (Buffer.wf_write h.buf_wf (State.slotBehind_lt h.bufferSize_pos) _)

/-- Legal values respect the bounds of the cursor and of the repeat counter (30_encoding.md R75). -/
theorem State.Inv.writeReg (h : s.Inv) (hd : d.toNat < s.legalBound r) : (s.writeReg d r).Inv := by
  cases r
  case currentIndex => exact h.with_currentIndex hd
  case repeatCount => exact h.with_msg fun _ => hd
  all_goals exact h

/-! ## Every step keeps the invariant -/

theorem State.Inv.frameEnd (h : s.Inv) (t3 : Word) : (s.frameEnd t3).Inv :=
  (((h.completeField .leadIn).deliver).requestClear t3).consume 4

theorem State.Inv.rowEffect (h : s.Inv) (i : Instr) : (rowEffect i s).Inv := by
  cases i
  case init | decode | rdreg | wrreg => exact h
  case ret => exact h.leaveCall
  case leadSkip => exact h.consume 1
  case leadStart => exact (h.clearMessage.completeField .address).consume 2
  case leadRepeat => exact h.countRepeat.deliver.consume 4
  case addrBitX | ainvBitX | cmdBitX | cinvBitX => exact (h.orError _ _).advancePulse.consume 2
  case addrBit0 | ainvBit0 | cmdBit0 | cinvBit0 => exact h.advancePulse.consume 2
  case addrBit1 | ainvBit1 | cmdBit1 | cinvBit1 => exact (h.orData _ _).advancePulse.consume 2
  case addrEndX | ainvEndX | cmdEndX => exact ((h.orError _ 7).completeField _).consume 2
  case addrEnd0 | ainvEnd0 | cmdEnd0 => exact (h.completeField _).consume 2
  case addrEnd1 | ainvEnd1 | cmdEnd1 => exact ((h.orData _ 7).completeField _).consume 2
  case cinvFrameX => exact (h.orError .commandInv 7).frameEnd _
  case cinvFrame0 => exact h.frameEnd _
  case cinvFrame1 => exact (h.orData .commandInv 7).frameEnd _

theorem State.Inv.exec (h : s.Inv) (hx : exec i s = .next t) : t.Inv := by
  rcases exec_cases hx with ⟨-, -, rfl⟩ | ⟨-, -, rfl⟩ | ⟨-, -, hi, rfl⟩ | ⟨r, -, -, rfl⟩ | ⟨r, d, -, -, hd, rfl⟩
  · exact h.rowEffect i
  · exact ⟨h.legal, rfl, fun _ => rfl, fun _ => ⟨h.bufferSize_pos, Nat.two_pow_pos _⟩⟩
  · exact h.deferredClear.enterCall (by rwa [s.deferredClear_frame])
  · exact h.respond _
  · exact h.writeReg hd

theorem State.Inv.writeSlot (h : s.Inv) {k : Nat} {v : Word} (hw : writeSlot k v s = .next t) : t.Inv := by
  obtain ⟨hk, rfl⟩ := writeSlot_eq_next_iff.mp hw
  exact h.with_buf (Buffer.wf_write h.buf_wf hk v)

theorem State.Inv.readSlot (h : s.Inv) {k : Nat} (hr : readSlot k s = .next t) : t.Inv := by
  obtain ⟨-, rfl⟩ := readSlot_eq_next_iff.mp hr
  exact h

theorem State.Inv.step (h : s.Inv) (hs : step s = .next t) : t.Inv := by
  obtain ⟨-, -, -, l, hcases⟩ := step_cases hs
  have hl := h.with_inputs l
  rcases hcases with ⟨i, -, hx⟩ | ⟨-, i, cmd, data, -, hx⟩ | ⟨k, v, hw⟩ | ⟨-, k, hr⟩ | ⟨-, rfl⟩
  · exact hl.exec hx
  · exact hl.exec hx
  · exact hl.writeSlot hw
  · exact hl.readSlot hr
  · exact hl

/-- Settles O41: a step is an instruction, a slot access or a rest, and each keeps the invariant. -/
theorem everyStepKeepsTheInvariant : Obligations.EveryStepKeepsTheInvariant :=
  fun _ _ => State.Inv.step

/-! ## Who writes `R.clearLast` -/

/-- R175: a frame end notes that no edge trails it. -/
theorem rowEffect_clearLast_of_frameRow (h : FrameRow i) :
    (rowEffect i s).clearLast = if s.snapshot.t3 = 0#32 then true else s.clearLast := by
  rcases h with rfl | rfl | rfl <;> rfl

theorem rowEffect_clearLast_of_not_frameRow (h : ¬ FrameRow i) : (rowEffect i s).clearLast = s.clearLast := by
  cases i
  case cinvFrameX | cinvFrame0 | cinvFrame1 => simp [FrameRow] at h
  all_goals rfl

theorem State.deferredClear_clearLast (s : State) : s.deferredClear.clearLast = false := by
  rw [s.deferredClear_frame]

theorem State.writeReg_clearLast_of_ne (h : r ≠ .clearLast) : (s.writeReg d r).clearLast = s.clearLast := by
  cases r
  case clearLast => exact absurd rfl h
  all_goals rfl

/-- Settles O46, by the instruction that moved the flag. -/
theorem clearLastHasFourWriters : Obligations.ClearLastHasFourWriters := by
  intro i s t hx hne
  rcases exec_cases hx with ⟨-, -, rfl⟩ | ⟨rfl, -, rfl⟩ | ⟨rfl, -, -, rfl⟩ | ⟨r, -, -, rfl⟩ | ⟨r, d, rfl, -, -, rfl⟩
  · have hf : FrameRow i := by
      by_contra hf
      exact hne (rowEffect_clearLast_of_not_frameRow hf)
    rw [rowEffect_clearLast_of_frameRow hf] at hne ⊢
    by_cases h3 : s.snapshot.t3 = 0#32
    · exact .inl ⟨hf, h3, if_pos h3⟩
    · exact absurd (if_neg h3) hne
  · exact .inr (.inl ⟨.inr rfl, rfl⟩)
  · exact .inr (.inl ⟨.inl rfl, s.deferredClear_clearLast⟩)
  · exact absurd rfl hne
  · have hr : r = .clearLast := by
      by_contra hr
      exact hne (State.writeReg_clearLast_of_ne hr)
    exact .inr (.inr ⟨d, by rw [hr]⟩)

/-! ## The pulse number in LeadIn -/

/-- The row of R78 starts in the state it is listed under. -/
theorem rowFor_edge_start {q p p' : ProtoState} {last : Bool} {lc : LeadClass} {pc : PulseClass}
    (h : edge (rowFor q last lc pc) = some (p, p')) : q = p := by
  cases q
  case leadIn => cases lc <;> cases h <;> rfl
  all_goals cases last <;> cases pc <;> cases h <;> rfl

/-- A selected row starts in the state of the block (41_data_fields.md R130). -/
theorem State.Selects.state_eq (h : s.Selects i) {p q : ProtoState} (he : edge i = some (p, q)) : s.state = p := by
  obtain ⟨-, rfl⟩ := (s.selects_iff i).mp h
  split at he
  · exact rowFor_edge_start he
  · cases he

/-- A row that ends in LeadIn started there and left the pulse number alone, or reset it. -/
theorem rowEffect_pulseNumber_of_leadIn (h : s.Selects i) (hq : (rowEffect i s).state = .leadIn) :
    (rowEffect i s).pulseNumber = 0#3 ∨
      s.state = .leadIn ∧ (rowEffect i s).pulseNumber = s.pulseNumber := by
  cases i
  case init | decode | rdreg | wrreg | ret => exact .inr ⟨hq, rfl⟩
  case leadSkip | leadRepeat => exact .inr ⟨hq, rfl⟩
  case addrBitX | addrBit0 | addrBit1 | ainvBitX | ainvBit0 | ainvBit1 | cmdBitX | cmdBit0 | cmdBit1 |
      cinvBitX | cinvBit0 | cinvBit1 =>
    cases (h.state_eq rfl).symm.trans hq
  all_goals exact .inl rfl

theorem State.writeReg_state_of_ne (h : r ≠ .state) : (s.writeReg d r).state = s.state := by
  cases r
  case state => exact absurd rfl h
  all_goals rfl

theorem State.writeReg_pulseNumber_of_ne (h : r ≠ .pulseNumber) : (s.writeReg d r).pulseNumber = s.pulseNumber := by
  cases r
  case pulseNumber => exact absurd rfl h
  all_goals rfl

/-- Settles O48, by what the instruction does to state and pulse number. -/
theorem leadInHasPulseNumberZero : Obligations.LeadInHasPulseNumberZero := by
  intro i s t hp hst h0 hx hq
  rcases exec_cases hx with ⟨-, hsel, rfl⟩ | ⟨-, -, rfl⟩ | ⟨-, -, -, rfl⟩ | ⟨r, -, -, rfl⟩ | ⟨r, d, rfl, -, -, rfl⟩
  · rcases rowEffect_pulseNumber_of_leadIn hsel hq with hz | ⟨hs, hn⟩
    · exact hz
    · exact hn.trans (h0 hs)
  · rfl
  · rw [s.deferredClear_frame] at hq ⊢
    exact h0 hq
  · exact h0 hq
  · rw [State.writeReg_state_of_ne fun e => hst d (by rw [e])] at hq
    rw [State.writeReg_pulseNumber_of_ne fun e => hp d (by rw [e])]
    exact h0 hq

/-! ## Before the first `INIT` -/

theorem Reg.isConfig_iff : r.isConfig = true ↔ ConfigReg r := by
  cases r <;> simp [Reg.isConfig, ConfigReg]

theorem whenInitialised_of_not {k} (h : s.initialised = false) : whenInitialised s k = .fault .notInitialised := by
  simp [whenInitialised, h]

theorem exec_decode_of_not_initialised (hp : s.phase = .idle) (hi : s.initialised = false) :
    exec .decode s = .fault .notInitialised :=
  (whileIdle_of_idle hp).trans (whenInitialised_of_not hi)

theorem exec_wrreg_of_not_initialised (hp : s.phase = .idle) (hi : s.initialised = false) (r : Reg) (d : Word) :
    exec (.wrreg r d) s = .fault .notInitialised :=
  (whileIdle_of_idle hp).trans (whenInitialised_of_not hi)

theorem exec_rdreg_of_not_initialised (hp : s.phase = .idle) (hi : s.initialised = false) (hr : ¬ ConfigReg r) :
    exec (.rdreg r) s = .fault .notInitialised :=
  calc exec (.rdreg r) s
      = if r.isConfig then .next (s.respond (s.readReg r)) else whenInitialised s (.next (s.respond (s.readReg r))) :=
        whileIdle_of_idle hp
    _ = whenInitialised s (.next (s.respond (s.readReg r))) := if_neg (mt Reg.isConfig_iff.mp hr)
    _ = .fault .notInitialised := whenInitialised_of_not hi

theorem exec_rdreg_of_configReg (hp : s.phase = .idle) (hr : ConfigReg r) :
    exec (.rdreg r) s = .next (s.respond (s.readReg r)) :=
  exec_rdreg_eq_next_iff.mpr ⟨hp, .inl (Reg.isConfig_iff.mpr hr), rfl⟩

/-- Settles O33: of a power-on state only its phase and its initialised bit matter. -/
theorem powerOnAcceptsOnlyInitAndConfigReads : Obligations.PowerOnAcceptsOnlyInitAndConfigReads := by
  rintro s ⟨hp, hi, -⟩
  exact ⟨exec_decode_of_not_initialised hp hi, exec_wrreg_of_not_initialised hp hi,
    fun _ hr => exec_rdreg_of_not_initialised hp hi hr, fun _ hr => ⟨_, exec_rdreg_of_configReg hp hr⟩,
    ⟨_, exec_init_of_idle hp⟩⟩

/-! ## Reset -/

theorem Config.initial_legal : Config.initial.legal := by decide

/-- Settles O40: `State.reset` is the state that `INIT` leaves under `Config.initial`. -/
theorem resetMeetsTheInvariant : Obligations.ResetMeetsTheInvariant :=
  ⟨State.inv_resetWith Config.initial_legal, ⟨rfl, rfl⟩, rfl, rfl, rfl, rfl, rfl, rfl, rfl, Buffer.read_nil⟩

end Sys2Proof.Machine
end

section
/-! # Memory: the schedule, the buffer port, and what instructions write

The order of the outside actions (20_memory.md R58), the accesses of host and producer to one slot (R50, R52, R55), and
that an instruction writes no other value than 0 to the buffer (R53). -/

namespace Sys2Proof.Machine

variable {s : State} {k : Nat} {v : Word} {rest : Schedule}

/-! ## The schedule: what moves next -/

@[simp] theorem Schedule.next_listed (e : Input) (l : List Input) (o : Onward) :
    (Schedule.mk (e :: l) o).next = some (e, Schedule.mk l o) := rfl

@[simp] theorem Schedule.next_quiet : (Schedule.mk [] .quiet).next = none := rfl

@[simp] theorem Schedule.next_cycle_nil : (Schedule.mk [] (.cycle [])).next = none := rfl

@[simp] theorem Schedule.next_cycle_cons (e : Input) (l : List Input) :
    (Schedule.mk [] (.cycle (e :: l))).next = some (e, Schedule.mk [] (.cycle (l ++ [e]))) := rfl

@[simp] theorem Schedule.next_free (n p : Nat) :
    (Schedule.mk [] (.free n p)).next = some (Config.freeInput n p, Schedule.mk [] (.free n (p + 1))) := rfl

/-- Settles O54: one equation of `Schedule.next` for each form of the schedule. -/
theorem scheduleGivesActionsInOrder : Obligations.ScheduleGivesActionsInOrder := fun l o e n k =>
  ⟨Schedule.next_listed e l o, Schedule.next_quiet, Schedule.next_cycle_nil, Schedule.next_cycle_cons e l,
    Schedule.next_free n k⟩

/-! ## One slot access -/

theorem writeSlot_of_lt (h : k < s.cfg.bufferSize) : writeSlot k v s = .next { s with buf := s.buf.write k v } :=
  if_pos h

theorem writeSlot_of_ge (h : s.cfg.bufferSize ≤ k) : writeSlot k v s = .refused .slotOutOfRange :=
  if_neg (Nat.not_lt.mpr h)

theorem readSlot_of_lt (h : k < s.cfg.bufferSize) :
    readSlot k s = .next { s with peeked := s.peeked ++ [s.buf.read k] } :=
  if_pos h

theorem readSlot_of_ge (h : s.cfg.bufferSize ≤ k) : readSlot k s = .refused .slotOutOfRange :=
  if_neg (Nat.not_lt.mpr h)

/-! ## The step of an outside access -/

/-- Where the schedule's turn runs no instruction, the step answers its outcome. -/
theorem step_of_scheduledTurn_done {o : Host.Outcome State Fault Refusal} (hm : s.Unmarked) (hl : s.cfg.legal)
    (h : scheduledTurn s = .done o) : step s = o :=
  step_of_done ((nextTurn_of_unmarked hm.1 hm.2 hl).trans h)

/-- The producer moves in either phase (60_exceptions.md R214). -/
theorem step_of_capture (hm : s.Unmarked) (hl : s.cfg.legal) (h : s.inputs.next = some (.capture k v, rest)) :
    step s = writeSlot k v { s with inputs := rest } :=
  step_of_scheduledTurn_done hm hl (by simp only [scheduledTurn, h])

/-- A host access is taken while the block is Idle (R213). -/
theorem step_of_hostWrite (hm : s.Unmarked) (hl : s.cfg.legal) (hp : s.phase = .idle)
    (h : s.inputs.next = some (.hostWrite k v, rest)) : step s = writeSlot k v { s with inputs := rest } :=
  step_of_scheduledTurn_done hm hl (by simp only [scheduledTurn, h, hp])

theorem step_of_hostRead (hm : s.Unmarked) (hl : s.cfg.legal) (hp : s.phase = .idle)
    (h : s.inputs.next = some (.hostRead k, rest)) : step s = readSlot k { s with inputs := rest } :=
  step_of_scheduledTurn_done hm hl (by simp only [scheduledTurn, h, hp])

/-- Settles O37: the step is the slot access, and a write to a slot reads back there and nowhere else. -/
theorem outsideAccessesReachOneSlot : Obligations.OutsideAccessesReachOneSlot := by
  intro s k v rest hinv hm
  refine ⟨fun hin => ?_, fun hp hin => ?_⟩
  · have hstep : step s = writeSlot k v { s with inputs := rest } := by
      rcases hin with hin | ⟨hp, hin⟩
      · exact step_of_capture hm hinv.legal hin
      · exact step_of_hostWrite hm hinv.legal hp hin
    rw [hstep]
    refine ⟨fun hk => ?_, writeSlot_of_ge (s := { s with inputs := rest })⟩
    exact ⟨_, writeSlot_of_lt (s := { s with inputs := rest }) hk, Buffer.read_write_same hinv.buf_wf k v,
      fun a ha => Buffer.read_write_of_ne s.buf v ha, rfl⟩
  · rw [step_of_hostRead hm hinv.legal hp hin]
    exact ⟨readSlot_of_lt (s := { s with inputs := rest }), readSlot_of_ge (s := { s with inputs := rest })⟩

/-! ## What instructions do to the buffer -/

/-- The number of slots that a row consumes (43_buffer.md R173); a host command consumes none. -/
def Instr.consumed : Instr → Nat
  | .init | .decode | .rdreg _ | .wrreg _ _ | .ret => 0
  | .leadSkip => 1
  | .leadStart => 2
  | .addrBitX | .addrBit0 | .addrBit1 | .addrEndX | .addrEnd0 | .addrEnd1 => 2
  | .ainvBitX | .ainvBit0 | .ainvBit1 | .ainvEndX | .ainvEnd0 | .ainvEnd1 => 2
  | .cmdBitX | .cmdBit0 | .cmdBit1 | .cmdEndX | .cmdEnd0 | .cmdEnd1 => 2
  | .cinvBitX | .cinvBit0 | .cinvBit1 => 2
  | .leadRepeat | .cinvFrameX | .cinvFrame0 | .cinvFrame1 => 4

/-- A row touches the buffer only by the slots it consumes. -/
theorem rowEffect_buf (i : Instr) (s : State) :
    (rowEffect i s).buf = s.buf.zeroRun s.cfg.bufferSize s.currentIndex (Instr.consumed i) := by
  cases i <;> rfl

@[simp] theorem State.writeReg_buf (s : State) (d : Word) (r : Reg) : (s.writeReg d r).buf = s.buf := by
  cases r <;> rfl

theorem Buffer.read_write_zero_eq_or_zero {n : Nat} {m : Buffer} (h : m.wf n = true) (k a : Nat) :
    (m.write k 0#32).read a = m.read a ∨ (m.write k 0#32).read a = 0#32 := by
  by_cases ha : a = k
  · subst ha
    exact .inr (Buffer.read_write_same h a _)
  · exact .inl (Buffer.read_write_of_ne m _ ha)

theorem Buffer.read_zeroRun_eq_or_zero {n : Nat} {m : Buffer} (h : m.wf n = true) (hn : 0 < n) (c k a : Nat) :
    (m.zeroRun n c k).read a = m.read a ∨ (m.zeroRun n c k).read a = 0#32 := by
  by_cases ha : ∃ j < k, a = (c + j) % n
  · obtain ⟨j, hj, rfl⟩ := ha
    exact .inr (Buffer.read_zeroRun_of_lt h hn c hj)
  · exact .inl (Buffer.read_zeroRun_of_ne m n c fun j hj e => ha ⟨j, hj, e⟩)

/-- The prelude of `DECODE` zeroes at most one slot (43_buffer.md R176). -/
theorem State.Inv.read_deferredClear_eq_or_zero (h : s.Inv) (a : Nat) :
    s.deferredClear.buf.read a = s.buf.read a ∨ s.deferredClear.buf.read a = 0#32 := by
  cases hc : s.clearLast with
  | false => rw [State.deferredClear_of_clear hc]; exact .inl rfl
  | true => rw [State.deferredClear_of_set hc]; exact Buffer.read_write_zero_eq_or_zero h.buf_wf _ a

/-- Settles O44: a row zeroes the slots it consumes, `INIT` all slots, `DECODE` at most one, other commands none. -/
theorem instructionsWriteOnlyZeros : Obligations.InstructionsWriteOnlyZeros := by
  intro i s t hinv hx a
  rcases exec_cases hx with ⟨-, -, rfl⟩ | ⟨-, -, rfl⟩ | ⟨-, -, -, rfl⟩ | ⟨r, -, -, rfl⟩ | ⟨r, d, -, -, -, rfl⟩
  · rw [rowEffect_buf]
    exact Buffer.read_zeroRun_eq_or_zero hinv.buf_wf hinv.bufferSize_pos _ _ a
  · exact .inr (Buffer.read_nil a)
  · exact hinv.read_deferredClear_eq_or_zero a
  · exact .inl rfl
  · rw [State.writeReg_buf]
    exact .inl rfl

end Sys2Proof.Machine
end

section
/-! # Encoding: command bytes, selectors, and the packed payload

What a command byte decodes to (30_encoding.md R74, R75), that decoding inverts encoding (R73 to R78), what the fields
of a selector hold and that none is reserved (R77 to R79), the operands of an iteration (R80), and the layout of the
`DELIVER` payload (R83). -/

namespace Sys2Proof

open Sys2Proof.Claims

variable {i : Instr} {b : Byte} {d : Word} {w : BitVec 7}

/-! ## The decoder by code space -/

theorem decode_command_eq_instr_iff : decode (.command b d) = .instr i ↔ decodeCommand b d = some i := by
  cases h : decodeCommand b d <;> simp [decode, h]

theorem decode_command_eq_reserved_iff : decode (.command b d) = .reservedCommand ↔ decodeCommand b d = none := by
  cases h : decodeCommand b d <;> simp [decode, h]

theorem decode_selector_eq_instr_iff : decode (.selector w) = .instr i ↔ decodeSelector w = some i := by
  cases h : decodeSelector w <;> simp [decode, h]

theorem decode_selector_eq_reserved_iff : decode (.selector w) = .reservedSelector ↔ decodeSelector w = none := by
  cases h : decodeSelector w <;> simp [decode, h]

/-! ## Command bytes -/

@[simp] theorem Reg.ofIndex_index (r : Reg) : Reg.ofIndex r.index = r := by
  cases r <;> rfl

/-- Register indices count the registers in the order of R75. -/
theorem registerOrder_getElem? : ∀ k : BitVec 4, registerOrder[k.toNat]? = some (Reg.ofIndex k) := by
  decide

/-- A byte whose operation group is not 0 is no byte of group 0 (R73). -/
theorem append_ne_of_group_zero {g : BitVec 4} (hg : g ≠ 0#4) (hb : b.extractLsb' 4 4 = 0#4) (k : BitVec 4) :
    g ++ k ≠ b := by
  rintro rfl
  exact hg (BitVec.extractLsb'_append_eq_left.symm.trans hb)

/-- The operation group `cmd[7:4]` as a number. -/
theorem operationGroup_eq_iff {g : BitVec 4} : b.extractLsb' 4 4 = g ↔ b.toNat / 16 = g.toNat := by
  have hlt : b.toNat / 16 < 16 := by omega
  rw [← BitVec.toNat_inj, BitVec.extractLsb'_toNat, Nat.shiftRight_eq_div_pow, Nat.mod_eq_of_lt hlt]

/-- A byte of a group other than 0 is decoded by its group alone. -/
theorem decodeCommand_append {g : BitVec 4} (hg : g ≠ 0#4) (k : BitVec 4) (d : Word) :
    decodeCommand (g ++ k) d =
      if g = 1#4 then some (.rdreg (Reg.ofIndex k))
      else if g = 2#4 then some (.wrreg (Reg.ofIndex k) d) else none := by
  rw [decodeCommand, if_neg (append_ne_of_group_zero hg (by decide) k),
    if_neg (append_ne_of_group_zero hg (by decide) k), BitVec.extractLsb'_append_eq_left,
    BitVec.extractLsb'_append_eq_right]

theorem decodeCommand_rdreg (k : BitVec 4) (d : Word) :
    decodeCommand (1#4 ++ k) d = some (.rdreg (Reg.ofIndex k)) :=
  decodeCommand_append (by decide) k d

theorem decodeCommand_wrreg (k : BitVec 4) (d : Word) :
    decodeCommand (2#4 ++ k) d = some (.wrreg (Reg.ofIndex k) d) :=
  decodeCommand_append (by decide) k d

theorem decodeCommand_eq_init_iff : decodeCommand b d = some .init ↔ b = 0x01#8 := by
  unfold decodeCommand
  split_ifs with h
  · exact ⟨fun _ => h, fun _ => rfl⟩
  all_goals exact ⟨nofun, fun e => absurd e h⟩

theorem decodeCommand_eq_decode_iff : decodeCommand b d = some .decode ↔ b = 0x02#8 := by
  unfold decodeCommand
  split_ifs with h1 h2
  · exact ⟨nofun, fun e => absurd (h1.symm.trans e) (by decide)⟩
  · exact ⟨fun _ => h2, fun _ => rfl⟩
  all_goals exact ⟨nofun, fun e => absurd e h2⟩

/-- The reserved bytes are those of no command (R74, R79 a). -/
theorem decodeCommand_eq_none_iff :
    decodeCommand b d = none ↔ b ≠ 0x01#8 ∧ b ≠ 0x02#8 ∧ b.toNat / 16 ≠ 1 ∧ b.toNat / 16 ≠ 2 := by
  have hr : b.extractLsb' 4 4 = 1#4 ↔ b.toNat / 16 = 1 := operationGroup_eq_iff
  have hw : b.extractLsb' 4 4 = 2#4 ↔ b.toNat / 16 = 2 := operationGroup_eq_iff
  unfold decodeCommand
  split_ifs with h1 h2 h3 h4
  · exact ⟨nofun, fun ⟨n1, _⟩ => absurd h1 n1⟩
  · exact ⟨nofun, fun ⟨_, n2, _⟩ => absurd h2 n2⟩
  · exact ⟨nofun, fun ⟨_, _, n3, _⟩ => absurd (hr.mp h3) n3⟩
  · exact ⟨nofun, fun ⟨_, _, _, n4⟩ => absurd (hw.mp h4) n4⟩
  · exact ⟨fun _ => ⟨h1, h2, mt hr.mpr h3, mt hw.mpr h4⟩, fun _ => rfl⟩

/-! ## Decoding inverts encoding -/

theorem decode_encode (i : Instr) : decode (encode i) = .instr i := by
  cases i
  case rdreg r => exact decode_command_eq_instr_iff.mpr (by rw [decodeCommand_rdreg, Reg.ofIndex_index])
  case wrreg r d => exact decode_command_eq_instr_iff.mpr (by rw [decodeCommand_wrreg, Reg.ofIndex_index])
  all_goals rfl

/-- Settles O4: the register index round-trips, and every other word is its own table's. -/
theorem decodeEncodeRoundTrip : Obligations.DecodeEncodeRoundTrip :=
  fun i _ => decode_encode i

/-- Settles O1, by the branches of the command decoder. -/
theorem commandBytesDecode : Obligations.CommandBytesDecode := by
  refine fun d => ⟨fun b => ?_, fun b => ?_, fun k r hr => ?_, fun b => ?_⟩
  · exact decode_command_eq_instr_iff.trans decodeCommand_eq_init_iff
  · exact decode_command_eq_instr_iff.trans decodeCommand_eq_decode_iff
  · obtain rfl : Reg.ofIndex k = r := Option.some.inj ((registerOrder_getElem? k).symm.trans hr)
    exact ⟨decode_command_eq_instr_iff.mpr (decodeCommand_rdreg k d),
      decode_command_eq_instr_iff.mpr (decodeCommand_wrreg k d)⟩
  · exact decode_command_eq_reserved_iff.trans decodeCommand_eq_none_iff

/-! ## The transition table -/

theorem selectorTable_filter_length_le : ∀ w : BitVec 7,
    (selectorTable.filter fun row => w &&& row.mask == row.pattern).length ≤ 1 := by
  decide

theorem decodeSelector_of_fail : ∀ w : BitVec 7, w.getLsbD 6 = true → decodeSelector w = some .ret := by
  decide

/-- With a passing gate, class code 3 and the state codes 5 to 7 are reserved (R79 b, c). -/
theorem decodeSelector_eq_none_iff_of_pass : ∀ w : BitVec 7, w.getLsbD 6 = false →
    (decodeSelector w = none ↔ w.extractLsb' 3 2 = 3#2 ∨ 5 ≤ (w.extractLsb' 0 3).toNat) := by
  decide

/-- Settles O3, by evaluating the table on the 128 selectors. -/
theorem selectorTableCoversLegalSelectors : Obligations.SelectorTableCoversLegalSelectors := fun w =>
  ⟨selectorTable_filter_length_le w, fun h => decode_selector_eq_instr_iff.mpr (decodeSelector_of_fail w h),
    fun h => decode_selector_eq_reserved_iff.trans (decodeSelector_eq_none_iff_of_pass w h)⟩

/-! ## The fields of a selector word -/

section Fields

variable (f l : BitVec 1) (c : BitVec 2) (q : BitVec 3)

theorem getLsbD_fail_fields : (f ++ l ++ c ++ q).getLsbD 6 = f.getLsbD 0 := by
  simp only [BitVec.getLsbD_append]
  rfl

theorem getLsbD_last_fields : (f ++ l ++ c ++ q).getLsbD 5 = l.getLsbD 0 := by
  simp only [BitVec.getLsbD_append]
  rfl

theorem extractLsb'_cls_fields : (f ++ l ++ c ++ q).extractLsb' 3 2 = c := by
  rw [BitVec.extractLsb'_append_eq_of_le (Nat.le_refl 3), Nat.sub_self, BitVec.extractLsb'_append_eq_right]

theorem extractLsb'_st_fields : (f ++ l ++ c ++ q).extractLsb' 0 3 = q :=
  BitVec.extractLsb'_append_eq_right

end Fields

theorem ProtoState.code_toNat (q : ProtoState) : q.code.toNat = stateCode q := by
  cases q <;> rfl

end Sys2Proof

namespace Sys2Proof.Machine

open Sys2Proof.Claims

variable {s t : State} {i : Instr} {f : Fault} {b : Byte} {d v : Word} {k : Nat}

/-! ## The selector of a state -/

theorem State.selector_of_gate (h : s.snapshot.gate = true) :
    s.selector = 0#1 ++ s.last ++ s.cls ++ s.state.code :=
  if_pos h

theorem State.selector_of_not_gate (h : s.snapshot.gate = false) :
    s.selector = 1#1 ++ 0#1 ++ 0#2 ++ s.state.code :=
  if_neg (by simp [h])

theorem State.last_getLsbD_iff : s.last.getLsbD 0 = true ↔ s.pulseNumber.toNat = 7 := by
  have h7 : s.pulseNumber = 7#3 ↔ s.pulseNumber.toNat = 7 := BitVec.toNat_inj.symm
  rw [← h7]
  unfold State.last
  split_ifs with h <;> simp [h]

theorem State.cls_of_leadIn (h : s.state = .leadIn) : s.cls = (leadClass s.mark s.space).code := by
  simp only [State.cls, h]

theorem State.cls_of_ne_leadIn (h : s.state ≠ .leadIn) : s.cls = (decodePulse s.mark s.space).code := by
  unfold State.cls
  cases hs : s.state
  case leadIn => exact absurd hs h
  all_goals rfl

theorem State.selector_fail_iff : s.selector.getLsbD 6 = true ↔ s.snapshot.gate = false := by
  cases h : s.snapshot.gate
  · rw [State.selector_of_not_gate h, getLsbD_fail_fields]; decide
  · rw [State.selector_of_gate h, getLsbD_fail_fields]; decide

theorem State.selector_st (s : State) : (s.selector.extractLsb' 0 3).toNat = stateCode s.state := by
  rw [← ProtoState.code_toNat]
  cases h : s.snapshot.gate
  · rw [State.selector_of_not_gate h, extractLsb'_st_fields]
  · rw [State.selector_of_gate h, extractLsb'_st_fields]

theorem State.selector_last_iff (h : s.snapshot.gate = true) :
    s.selector.getLsbD 5 = true ↔ s.pulseNumber.toNat = 7 := by
  rw [State.selector_of_gate h, getLsbD_last_fields, State.last_getLsbD_iff]

theorem State.selector_cls (h : s.snapshot.gate = true) : s.selector.extractLsb' 3 2 = s.cls := by
  rw [State.selector_of_gate h, extractLsb'_cls_fields]

/-- Settles O5, field by field. -/
theorem selectorFieldsAreComputed : Obligations.SelectorFieldsAreComputed := by
  refine fun s => ⟨State.selector_fail_iff, s.selector_st, fun hg => ?_⟩
  refine ⟨State.selector_last_iff hg, fun h => ?_, fun h => ?_⟩
  · rw [State.selector_cls hg, State.cls_of_leadIn h]
    cases leadClass s.mark s.space <;> rfl
  · rw [State.selector_cls hg, State.cls_of_ne_leadIn h]
    cases decodePulse s.mark s.space <;> rfl

/-! ## Sample words -/

/-- Settles O2: encoder words, a failing selector, and selectors built as R77 says. -/
theorem sampleWordsDecode : Obligations.SampleWordsDecode :=
  ⟨decode_encode .init, decode_encode (.rdreg .command), decode_encode (.wrreg .command 0x9E#32),
    decode_selector_eq_instr_iff.mpr (decodeSelector_of_fail _ rfl),
    decode_selector_eq_instr_iff.mpr (decodeSelector_pass .leadIn true .start .invalid),
    decode_selector_eq_instr_iff.mpr (decodeSelector_pass .address false .none .one),
    decode_selector_eq_instr_iff.mpr (decodeSelector_pass .addressInv true .none .invalid),
    decode_selector_eq_instr_iff.mpr (decodeSelector_pass .command false .none .zero),
    decode_selector_eq_instr_iff.mpr (decodeSelector_pass .commandInv true .none .one)⟩

/-! ## The faults of a step -/

theorem onRow_ne_fault : onRow i s t ≠ .fault f := by
  unfold onRow
  split_ifs <;> nofun

theorem writeSlot_ne_fault : writeSlot k v s ≠ .fault f := by
  unfold writeSlot
  split_ifs <;> nofun

theorem readSlot_ne_fault : readSlot k s ≠ .fault f := by
  unfold readSlot
  split_ifs <;> nofun

theorem whileIdle_eq_fault {o : Host.Outcome State Fault Refusal} (h : whileIdle s o = .fault f) : o = .fault f := by
  cases hp : s.phase with
  | idle => rwa [whileIdle_of_idle hp] at h
  | busy => rw [whileIdle_of_busy hp] at h; cases h

theorem whenInitialised_eq_fault {o : Host.Outcome State Fault Refusal} (h : whenInitialised s o = .fault f) :
    f = .notInitialised ∨ o = .fault f := by
  cases hi : s.initialised with
  | false => rw [whenInitialised_of_not hi] at h; cases h; exact .inl rfl
  | true => exact .inr (by simpa [whenInitialised, hi] using h)

/-- The only fault of an instruction is that of a machine without its first `INIT` (10_state.md R34). -/
theorem exec_fault (h : exec i s = .fault f) : f = .notInitialised := by
  cases i
  case init => cases whileIdle_eq_fault h
  case decode => exact (whenInitialised_eq_fault (whileIdle_eq_fault h)).resolve_right nofun
  case rdreg r =>
    have hk := whileIdle_eq_fault h
    split_ifs at hk
    exact (whenInitialised_eq_fault hk).resolve_right nofun
  case wrreg r d =>
    refine (whenInitialised_eq_fault (whileIdle_eq_fault h)).resolve_right ?_
    split_ifs <;> nofun
  all_goals exact absurd h onRow_ne_fault

theorem iterationTurn_ne_fault (s : State) : iterationTurn s ≠ .done (.fault f) := by
  obtain ⟨i, -, hi⟩ := iterationTurn_eq s
  rw [hi]
  nofun

theorem decoderTurn_ne_fault (s : State) : decoderTurn s ≠ .done (.fault f) := by
  unfold decoderTurn
  cases s.phase with
  | busy => exact iterationTurn_ne_fault s
  | idle => nofun

theorem commandTurn_ne_fault : commandTurn b d s ≠ .done (.fault f) := by
  unfold commandTurn
  cases decodeCommand b d <;> nofun

theorem scheduledTurn_ne_fault (s : State) : scheduledTurn s ≠ .done (.fault f) := by
  unfold scheduledTurn
  rcases s.inputs.next with _ | ⟨⟨cmd, data⟩ | ⟨k, v⟩ | k | ⟨k, v⟩ | _, rest⟩
  case none => exact decoderTurn_ne_fault s
  case some.capture => exact fun h => writeSlot_ne_fault (Turn.done.inj h)
  case some.decoder => exact decoderTurn_ne_fault _
  all_goals cases s.phase
  case some.command.busy | some.hostWrite.busy | some.hostRead.busy => exact iterationTurn_ne_fault s
  case some.command.idle => exact commandTurn_ne_fault
  case some.hostWrite.idle => exact fun h => writeSlot_ne_fault (Turn.done.inj h)
  case some.hostRead.idle => exact fun h => readSlot_ne_fault (Turn.done.inj h)

/-- Without a fault mark the scheduled turn's outcome is no fault: only an instruction can raise one. -/
theorem nextTurn_ne_fault (hf : s.faultMark = none) : nextTurn s ≠ .done (.fault f) := by
  unfold nextTurn
  rw [hf]
  cases s.refusalMark with
  | some r => nofun
  | none =>
    dsimp only
    split_ifs
    · exact scheduledTurn_ne_fault s
    · nofun

/-- A machine without a fault mark can only fault for want of an `INIT`. -/
theorem step_fault (hf : s.faultMark = none) (h : step s = .fault f) : f = .notInitialised := by
  cases hn : nextTurn s with
  | run i u => exact exec_fault ((step_of_turn hn).symm.trans h)
  | done o => exact absurd (hn.trans (congrArg Turn.done ((step_of_done hn).symm.trans h))) (nextTurn_ne_fault hf)

/-- Settles O6: every selector selects a row, and an instruction's only fault is another. -/
theorem reservedSelectorUnreachable : Obligations.ReservedSelectorUnreachable := by
  refine fun s => ⟨⟨_, decode_selector_eq_instr_iff.mpr s.decodeSelector_selector⟩, fun hf h => ?_⟩
  cases step_fault hf h

/-! ## The operands of an iteration -/

/-- Settles O14: the snapshot reads slots 0 to 3 from the cursor, and mark and space are taken from it. -/
theorem iterationOperands : Obligations.IterationOperands :=
  fun _ => ⟨rfl, rfl, rfl, rfl, rfl, rfl⟩

/-! ## The `DELIVER` payload -/

/-- The eight bytes below the repeat counter (30_encoding.md R83). -/
def Message.packBytes (m : Message) : BitVec (8 + 8 + 8 + 8 + 8 + 8 + 8 + 8) :=
  m.commandInvError ++ m.commandError ++ m.addressInvError ++ m.addressError ++
    m.commandInv ++ m.command ++ m.addressInv ++ m.address

theorem Message.pack_byte (m : Message) (b : RepeatBits) {p : Nat} (h : p + 8 ≤ 64) :
    (m.pack b).extractLsb' p 8 = m.packBytes.extractLsb' p 8 :=
  BitVec.extractLsb'_append_eq_of_add_le h

theorem Message.pack_repeatCount (m : Message) (b : RepeatBits) :
    (m.pack b).extractLsb' 64 b.width = m.repeatCount.setWidth b.width :=
  BitVec.extractLsb'_append_eq_left

/-- Above the lowest byte of a word stands what that byte was appended to. -/
theorem extractLsb'_append_byte {n p : Nat} (hi : BitVec n) (lo : Byte) :
    (hi ++ lo).extractLsb' (p + 8) 8 = hi.extractLsb' p 8 := by
  rw [BitVec.extractLsb'_append_eq_of_le (Nat.le_add_left 8 p), Nat.add_sub_cancel]

/-- Settles O49: a byte is reached past the lower ones, and the repeat counter lies above all of them. -/
theorem deliverPayloadLayout : Obligations.DeliverPayloadLayout := by
  intro b m
  refine ⟨?_, ?_, ?_, ?_, ?_, ?_, ?_, ?_, m.pack_repeatCount b⟩
  all_goals
    refine (m.pack_byte b (by decide)).trans ?_
    simp only [Message.packBytes, extractLsb'_append_byte, BitVec.extractLsb'_append_eq_right,
      BitVec.extractLsb'_eq_self]

end Sys2Proof.Machine
end

section
/-! # Lead-in: the three rows of LeadIn, and what every transition row shares

The match and mask of a row (30_encoding.md R78), what selects it (44_control.md R192) and what it consumes
(43_buffer.md R173, R174); then `LEAD.START`, `LEAD.REPEAT` and `LEAD.SKIP` (40_leadin.md R101 to R103). -/

namespace Sys2Proof.Machine

open Sys2Proof.Claims

variable {s : State} {i : Instr}

/-! ## The match and mask of a row -/

theorem selectorTable_instr_nodup : (selectorTable.map (·.instr)).Nodup := by decide

/-- No other row comes before a row that the selector matches: the rows do not overlap (30_encoding.md R79). -/
theorem selectorTable_find?_of_mem {w : BitVec 7} {r : SelectorRow} (hr : r ∈ selectorTable)
    (hw : w &&& r.mask = r.pattern) :
    (selectorTable.find? fun row => w &&& row.mask == row.pattern) = some r := by
  have hmem : r ∈ selectorTable.filter fun row => w &&& row.mask == row.pattern :=
    List.mem_filter.mpr ⟨hr, beq_iff_eq.mpr hw⟩
  obtain ⟨a, ha⟩ := List.length_eq_one_iff.mp
    (le_antisymm (selectorTable_filter_length_le w) (List.length_pos_of_mem hmem))
  rw [ha, List.mem_singleton] at hmem
  rw [← List.head?_filter, ha, hmem, List.head?_cons]

theorem decodeSelector_eq_some_iff {w : BitVec 7} :
    decodeSelector w = some i ↔ ∃ r ∈ selectorTable, w &&& r.mask = r.pattern ∧ r.instr = i := by
  rw [decodeSelector, Option.map_eq_some_iff]
  constructor
  · rintro ⟨r, hr, hi⟩
    exact ⟨r, List.mem_of_find?_eq_some hr, by simpa using List.find?_some hr, hi⟩
  · rintro ⟨r, hr, hw, hi⟩
    exact ⟨r, selectorTable_find?_of_mem hr hw, hi⟩

/-- An entry of the table is its instruction's only one: no other selector decodes to the instruction. -/
theorem hasRow_of_mem {p m : BitVec 7} (h : ⟨p, m, i⟩ ∈ selectorTable) : HasRow i p m := by
  intro w
  rw [decode_selector_eq_instr_iff, decodeSelector_eq_some_iff]
  constructor
  · rintro ⟨r, hr, hw, hi⟩
    obtain rfl := List.inj_on_of_nodup_map selectorTable_instr_nodup hr h hi
    exact hw
  · exact fun hw => ⟨_, h, hw, rfl⟩

/-! ## A passing iteration runs the selected row -/

theorem selects_of_passing (h : Passing s)
    (hi : rowFor s.state (decide (s.pulseNumber = 7#3)) (leadClass s.mark s.space) (decodePulse s.mark s.space) = i) :
    s.Selects i := by
  obtain ⟨-, hbusy, hgate⟩ := h
  exact (s.selects_iff i).mpr ⟨hbusy, (if_pos hgate).trans hi⟩

theorem exec_of_selects (h : s.Selects i) : exec i s = .next (rowEffect i s) :=
  (exec_row_eq_next_iff h.isRow).mpr ⟨h, rfl⟩

/-! ## What a row consumes -/

theorem rowEffect_currentIndex (hinv : s.Inv) (hb : s.phase = .busy) (i : Instr) :
    (rowEffect i s).currentIndex = (s.currentIndex + Instr.consumed i) % s.cfg.bufferSize := by
  cases i
  case init | decode | rdreg | wrreg | ret =>
    exact (Nat.mod_eq_of_lt (hinv.currentIndex_lt (hinv.initialised_of_busy hb))).symm
  all_goals rfl

/-- A row zeroes the slots from the cursor on, moves the cursor past them, and leaves the other slots alone. -/
theorem consumes_rowEffect (hinv : s.Inv) (hb : s.phase = .busy) (i : Instr) :
    Consumes (Instr.consumed i) s (rowEffect i s) := by
  refine ⟨rowEffect_currentIndex hinv hb i, fun j hj => ?_, fun a ha => ?_⟩
  · rw [rowEffect_buf]
    exact Buffer.read_zeroRun_of_lt hinv.buf_wf hinv.bufferSize_pos _ hj
  · rw [rowEffect_buf]
    exact Buffer.read_zeroRun_of_ne _ _ _ ha

/-- With its row known, a passing iteration steps to the row's effect, which consumes the row's slots. -/
theorem exec_consumes_of_passing (h : Passing s)
    (hi : rowFor s.state (decide (s.pulseNumber = 7#3)) (leadClass s.mark s.space) (decodePulse s.mark s.space) = i) :
    exec i s = .next (rowEffect i s) ∧ Consumes (Instr.consumed i) s (rowEffect i s) := by
  have hsel := selects_of_passing h hi
  obtain ⟨hinv, hbusy, -⟩ := h
  exact ⟨exec_of_selects hsel, consumes_rowEffect hinv hbusy i⟩

/-! ## The lead-in class of the pulse -/

theorem leadClass_eq_start_iff_startPulse : leadClass s.mark s.space = .start ↔ StartPulse s :=
  leadClass_eq_start_iff.trans and_assoc

theorem leadClass_eq_repeatCode_iff_repeatPulse : leadClass s.mark s.space = .repeatCode ↔ RepeatPulse s :=
  leadClass_eq_repeatCode_iff.trans and_assoc

theorem leadClass_eq_none_of_not (hs : ¬ StartPulse s) (hr : ¬ RepeatPulse s) :
    leadClass s.mark s.space = .none := by
  cases hc : leadClass s.mark s.space with
  | none => rfl
  | start => exact absurd (leadClass_eq_start_iff_startPulse.mp hc) hs
  | repeatCode => exact absurd (leadClass_eq_repeatCode_iff_repeatPulse.mp hc) hr

/-! ## The rows of LeadIn -/

/-- Settles O16: a start pulse selects `LEAD.START`, whose effect clears the Message and enters Address. -/
theorem leadStartBeginsAFrame : Obligations.LeadStartBeginsAFrame := by
  refine ⟨hasRow_of_mem (by decide), fun s hpass hstate hstart => ?_⟩
  obtain ⟨hexec, hcons⟩ := exec_consumes_of_passing (i := .leadStart) hpass
    (by rw [hstate, leadClass_eq_start_iff_startPulse.mpr hstart]; rfl)
  exact ⟨_, hexec, hcons, rfl⟩

/-- The counter's new value fits its 32-bit register (40_leadin.md R102). -/
theorem State.countRepeat_repeatCount_toNat (s : State) :
    s.countRepeat.msg.repeatCount.toNat = (s.msg.repeatCount.toNat + 1) % 2 ^ s.cfg.repeatBits.width := by
  have hwidth : s.cfg.repeatBits.width ≤ 32 := by cases s.cfg.repeatBits <;> decide
  rw [State.countRepeat_repeatCount, BitVec.toNat_ofNat]
  refine Nat.mod_eq_of_lt ?_
  calc (s.msg.repeatCount.toNat + 1) % 2 ^ s.cfg.repeatBits.width
      < 2 ^ s.cfg.repeatBits.width := Nat.mod_lt _ (Nat.two_pow_pos _)
    _ ≤ 2 ^ 32 := Nat.pow_le_pow_right (by decide) hwidth

/-- Settles O17: a repeat pulse selects `LEAD.REPEAT`, which counts first and then delivers. -/
theorem leadRepeatCountsAndDelivers : Obligations.LeadRepeatCountsAndDelivers := by
  refine ⟨hasRow_of_mem (by decide), fun s hpass hstate hrepeat => ?_⟩
  obtain ⟨hexec, hcons⟩ := exec_consumes_of_passing (i := .leadRepeat) hpass
    (by rw [hstate, leadClass_eq_repeatCode_iff_repeatPulse.mpr hrepeat]; rfl)
  exact ⟨_, hexec, hcons, s.countRepeat_repeatCount_toNat, rfl⟩

/-- Settles O18: any other pulse selects `LEAD.SKIP`, which only consumes. -/
theorem leadSkipPassesOneSlot : Obligations.LeadSkipPassesOneSlot := by
  refine ⟨hasRow_of_mem (by decide), fun s hpass hstate hns hnr => ?_⟩
  obtain ⟨hexec, hcons⟩ := exec_consumes_of_passing (i := .leadSkip) hpass
    (by rw [hstate, leadClass_eq_none_of_not hns hnr]; rfl)
  exact ⟨_, hexec, hcons, rfl⟩

end Sys2Proof.Machine
end

section
/-! # Data fields: the pulses of a field, the next-state table, and a whole buffered frame

What a data pulse notes in the Message and where it leads (41_data_fields.md R120 to R130), said once for the four
fields and the three pulse classes; then the rows R121 to R129, the next-state table (R130 a), and the decoding of a
frame of 68 buffered edges (R130 b to d). -/

namespace Sys2Proof.Machine

open Sys2Proof.Claims

variable {s t : State} {i : Instr} {f : DataField} {pc : PulseClass} {p q : ProtoState}

/-! ## The row of a data pulse -/

/-- The row of a data pulse: by field, by whether it is the field's last, by class. -/
def dataRow (f : DataField) (last : Bool) (pc : PulseClass) : Instr :=
  rowFor f.state last .none pc

/-- In a data state the lead-in class does not matter. -/
theorem rowFor_dataField (f : DataField) (last : Bool) (lc : LeadClass) (pc : PulseClass) :
    rowFor f.state last lc pc = dataRow f last pc := by
  cases f <;> rfl

theorem selects_dataRow (hpass : Passing s) (hs : s.state = f.state) (hpc : decodePulse s.mark s.space = pc) :
    s.Selects (dataRow f (decide (s.pulseNumber = 7#3)) pc) :=
  selects_of_passing hpass (by rw [hs, hpc, rowFor_dataField])

/-! ## The class of a data pulse -/

theorem decodePulse_eq_one_iff_onePulse : decodePulse s.mark s.space = .one ↔ OnePulse s :=
  decodePulse_eq_one_iff.trans and_assoc

theorem decodePulse_eq_zero_iff_zeroPulse : decodePulse s.mark s.space = .zero ↔ ZeroPulse s :=
  decodePulse_eq_zero_iff.trans and_assoc

theorem decodePulse_eq_invalid_of_invalidPulse (h : InvalidPulse s) : decodePulse s.mark s.space = .invalid := by
  obtain ⟨hone, hzero⟩ := h
  cases hc : decodePulse s.mark s.space with
  | invalid => rfl
  | zero => exact absurd (decodePulse_eq_zero_iff_zeroPulse.mp hc) hzero
  | one => exact absurd (decodePulse_eq_one_iff_onePulse.mp hc) hone

/-! ## What a data pulse notes -/

theorem bitAt_eq_weight (n : Nat) : bitAt n = weight n :=
  BitVec.eq_of_toNat_eq (BitVec.toNat_twoPow 8 n)

/-- What the pulse at position n of a field leaves in the Message: a `ONE` its bit, an `INVALID` pulse its error bit, a
`ZERO` nothing (R121 to R123). -/
def Message.notePulse (f : DataField) (n : Nat) (pc : PulseClass) (m : Message) : Message :=
  match pc with
  | .one => m.setData f (m.data f ||| bitAt n)
  | .zero => m
  | .invalid => m.setError f (m.error f ||| bitAt n)

def State.notePulse (f : DataField) (n : Nat) (pc : PulseClass) (s : State) : State :=
  { s with msg := s.msg.notePulse f n pc }

/-- A pulse that is not its field's last. -/
theorem rowEffect_dataRow_bit (f : DataField) (pc : PulseClass) (s : State) :
    rowEffect (dataRow f false pc) s = (s.notePulse f s.pulseNumber.toNat pc).advancePulse.consume 2 := by
  cases f <;> cases pc <;> rfl

/-- The last pulse of a field that is not the frame's last. -/
theorem rowEffect_dataRow_end (hf : f ≠ .commandInv) (pc : PulseClass) (s : State) :
    rowEffect (dataRow f true pc) s = ((s.notePulse f 7 pc).completeField f.next).consume 2 := by
  cases f
  case commandInv => exact absurd rfl hf
  all_goals cases pc <;> rfl

/-- The last pulse of a frame. -/
theorem rowEffect_dataRow_frame (pc : PulseClass) (s : State) :
    rowEffect (dataRow .commandInv true pc) s = (s.notePulse .commandInv 7 pc).frameEnd s.snapshot.t3 := by
  cases pc <;> rfl

/-! ## The step of a data pulse -/

theorem State.Inv.consumes_consume (h : s.Inv) (k : Nat) : Consumes k s (s.consume k) :=
  ⟨rfl, fun _ hj => Buffer.read_zeroRun_of_lt h.buf_wf h.bufferSize_pos _ hj,
    fun _ ha => Buffer.read_zeroRun_of_ne _ _ _ ha⟩

theorem selects_dataRow_bit (hpass : Passing s) (hs : s.state = f.state) (hpc : decodePulse s.mark s.space = pc)
    (hn : s.pulseNumber.toNat ≤ 6) : s.Selects (dataRow f false pc) := by
  have h7 : s.pulseNumber ≠ 7#3 := fun h => absurd hn (by rw [h]; decide)
  have hsel := selects_dataRow hpass hs hpc
  rwa [decide_eq_false h7] at hsel

theorem selects_dataRow_last (hpass : Passing s) (hs : s.state = f.state) (hpc : decodePulse s.mark s.space = pc)
    (hn : s.pulseNumber.toNat = 7) : s.Selects (dataRow f true pc) := by
  have h7 : s.pulseNumber = 7#3 := BitVec.eq_of_toNat_eq hn
  have hsel := selects_dataRow hpass hs hpc
  rwa [decide_eq_true h7] at hsel

/-- R121 to R123. -/
theorem bitStep_of_passing (hpass : Passing s) (hs : s.state = f.state) (hpc : decodePulse s.mark s.space = pc)
    (hn : s.pulseNumber.toNat ≤ 6) :
    BitStep (dataRow f false pc) s (s.msg.notePulse f s.pulseNumber.toNat pc) := by
  have hnext : BitVec.ofNat 3 (s.pulseNumber.toNat + 1) = s.pulseNumber + 1#3 := by
    rw [BitVec.ofNat_add, BitVec.ofNat_toNat, BitVec.setWidth_eq]
  refine ⟨_, exec_of_selects (selects_dataRow_bit hpass hs hpc hn), ?_⟩
  rw [rowEffect_dataRow_bit, hnext]
  exact ⟨hpass.1.consumes_consume 2, rfl⟩

/-- R124 to R126. -/
theorem endStep_of_passing (hpass : Passing s) (hs : s.state = f.state) (hpc : decodePulse s.mark s.space = pc)
    (hn : s.pulseNumber.toNat = 7) (hf : f ≠ .commandInv) :
    EndStep (dataRow f true pc) s f.next (s.msg.notePulse f 7 pc) := by
  refine ⟨_, exec_of_selects (selects_dataRow_last hpass hs hpc hn), ?_⟩
  rw [rowEffect_dataRow_end hf]
  exact ⟨hpass.1.consumes_consume 2, rfl⟩

/-- R127 to R129. -/
theorem frameStep_of_passing (hpass : Passing s) (hs : s.state = .commandInv) (hpc : decodePulse s.mark s.space = pc)
    (hn : s.pulseNumber.toNat = 7) :
    FrameStep (dataRow .commandInv true pc) s (s.msg.notePulse .commandInv 7 pc) := by
  refine ⟨_, exec_of_selects (selects_dataRow_last hpass hs hpc hn), ?_⟩
  rw [rowEffect_dataRow_frame]
  exact ⟨hpass.1.consumes_consume 4, rfl⟩

/-! ## The rows of a pulse that is not its field's last -/

/-- Settles O19: a `ONE` notes its data bit. -/
theorem bitOneSetsTheDataBit : Obligations.BitOneSetsTheDataBit := by
  refine ⟨hasRow_of_mem (by decide), hasRow_of_mem (by decide), hasRow_of_mem (by decide), hasRow_of_mem (by decide),
    fun s hpass hone hn => ?_⟩
  have hstep (f : DataField) (hs : s.state = f.state) :=
    bitStep_of_passing hpass hs (decodePulse_eq_one_iff_onePulse.mpr hone) hn
  simp only [Message.notePulse, bitAt_eq_weight] at hstep
  exact ⟨hstep .address, hstep .addressInv, hstep .command, hstep .commandInv⟩

/-- Settles O20: a `ZERO` notes nothing. -/
theorem bitZeroKeepsTheField : Obligations.BitZeroKeepsTheField := by
  refine ⟨hasRow_of_mem (by decide), hasRow_of_mem (by decide), hasRow_of_mem (by decide), hasRow_of_mem (by decide),
    fun s hpass hzero hn => ?_⟩
  have hstep (f : DataField) (hs : s.state = f.state) :=
    bitStep_of_passing hpass hs (decodePulse_eq_zero_iff_zeroPulse.mpr hzero) hn
  exact ⟨hstep .address, hstep .addressInv, hstep .command, hstep .commandInv⟩

/-- Settles O21: an `INVALID` pulse notes its error bit. -/
theorem bitInvalidSetsTheErrorBit : Obligations.BitInvalidSetsTheErrorBit := by
  refine ⟨hasRow_of_mem (by decide), hasRow_of_mem (by decide), hasRow_of_mem (by decide), hasRow_of_mem (by decide),
    fun s hpass hinvalid hn => ?_⟩
  have hstep (f : DataField) (hs : s.state = f.state) :=
    bitStep_of_passing hpass hs (decodePulse_eq_invalid_of_invalidPulse hinvalid) hn
  simp only [Message.notePulse, bitAt_eq_weight] at hstep
  exact ⟨hstep .address, hstep .addressInv, hstep .command, hstep .commandInv⟩

/-! ## The rows of a field's last pulse -/

/-- Settles O22: a `ONE` notes bit 7 and completes the field. -/
theorem endOneCompletesTheField : Obligations.EndOneCompletesTheField := by
  refine ⟨hasRow_of_mem (by decide), hasRow_of_mem (by decide), hasRow_of_mem (by decide), fun s hpass hone hn => ?_⟩
  have hstep (f : DataField) (hf : f ≠ .commandInv) (hs : s.state = f.state) :=
    endStep_of_passing hpass hs (decodePulse_eq_one_iff_onePulse.mpr hone) hn hf
  exact ⟨hstep .address nofun, hstep .addressInv nofun, hstep .command nofun⟩

/-- Settles O23: a `ZERO` notes nothing and completes the field. -/
theorem endZeroCompletesTheField : Obligations.EndZeroCompletesTheField := by
  refine ⟨hasRow_of_mem (by decide), hasRow_of_mem (by decide), hasRow_of_mem (by decide), fun s hpass hzero hn => ?_⟩
  have hstep (f : DataField) (hf : f ≠ .commandInv) (hs : s.state = f.state) :=
    endStep_of_passing hpass hs (decodePulse_eq_zero_iff_zeroPulse.mpr hzero) hn hf
  exact ⟨hstep .address nofun, hstep .addressInv nofun, hstep .command nofun⟩

/-- Settles O24: an `INVALID` pulse notes error bit 7 and still completes the field. -/
theorem endInvalidCompletesTheField : Obligations.EndInvalidCompletesTheField := by
  refine ⟨hasRow_of_mem (by decide), hasRow_of_mem (by decide), hasRow_of_mem (by decide),
    fun s hpass hinvalid hn => ?_⟩
  have hstep (f : DataField) (hf : f ≠ .commandInv) (hs : s.state = f.state) :=
    endStep_of_passing hpass hs (decodePulse_eq_invalid_of_invalidPulse hinvalid) hn hf
  exact ⟨hstep .address nofun, hstep .addressInv nofun, hstep .command nofun⟩

/-! ## The rows of a frame's last pulse -/

/-- Settles O25: the delivered Message has the `ONE`'s bit 7. -/
theorem frameOneDelivers : Obligations.FrameOneDelivers := by
  refine ⟨hasRow_of_mem (by decide), fun s hpass hone hn hs => ?_⟩
  exact frameStep_of_passing hpass hs (decodePulse_eq_one_iff_onePulse.mpr hone) hn

/-- Settles O26: the delivered Message is the one before the pulse. -/
theorem frameZeroDelivers : Obligations.FrameZeroDelivers := by
  refine ⟨hasRow_of_mem (by decide), fun s hpass hzero hn hs => ?_⟩
  exact frameStep_of_passing hpass hs (decodePulse_eq_zero_iff_zeroPulse.mpr hzero) hn

/-- Settles O27: the delivered Message has the pulse's error bit 7. -/
theorem frameInvalidDelivers : Obligations.FrameInvalidDelivers := by
  refine ⟨hasRow_of_mem (by decide), fun s hpass hinvalid hn hs => ?_⟩
  exact frameStep_of_passing hpass hs (decodePulse_eq_invalid_of_invalidPulse hinvalid) hn

/-! ## The next-state table -/

/-- An instruction with an edge of R130 (a) is a transition row. -/
theorem isRow_of_edge (he : edge i = some (p, q)) : Instr.isRow i = true := by
  cases i
  case init | decode | rdreg | wrreg => cases he
  all_goals rfl

/-- A row run where its edge starts ends where its edge ends. -/
theorem rowEffect_state (he : edge i = some (p, q)) (hs : s.state = p) : (rowEffect i s).state = q := by
  cases i
  case init | decode | rdreg | wrreg | ret => cases he
  case leadSkip | leadRepeat | addrBitX | addrBit0 | addrBit1 | ainvBitX | ainvBit0 | ainvBit1 | cmdBitX | cmdBit0 |
      cmdBit1 | cinvBitX | cinvBit0 | cinvBit1 =>
    cases he
    exact hs
  all_goals
    cases he
    rfl

/-- A row that answers a next state was selected, so it started where its edge starts. -/
theorem exec_edge (hx : exec i s = .next t) (he : edge i = some (p, q)) : s.state = p ∧ t.state = q := by
  obtain ⟨hsel, rfl⟩ := (exec_row_eq_next_iff (isRow_of_edge he)).mp hx
  exact ⟨hsel.state_eq he, rowEffect_state he (hsel.state_eq he)⟩

/-- Settles O47: a row moves along its edge, and `RETURN`, `DECODE` and `RDREG` do not write the state. -/
theorem nextStateTable : Obligations.NextStateTable := by
  refine fun i s t hx => ⟨fun p q he => exec_edge hx he, ?_⟩
  rintro (rfl | rfl | ⟨r, rfl⟩)
  · obtain ⟨-, rfl⟩ := (exec_row_eq_next_iff rfl).mp hx
    rfl
  · obtain ⟨-, -, rfl⟩ := exec_decode_eq_next_iff.mp hx
    rw [s.deferredClear_frame]
  · obtain ⟨-, -, rfl⟩ := exec_rdreg_eq_next_iff.mp hx
    rfl

end Sys2Proof.Machine
end

section
/-! # A whole buffered frame

From LeadIn, `LEAD.START`, 31 data pulses and the last pulse of the frame run on 68 edges that all stand in the buffer
(41_data_fields.md R130 b to d, 95_test_vectors.md E5): the state between two pulses is written out, and each pulse
moves it on by one. -/

namespace Sys2Proof.Machine

open Sys2Proof.Claims

variable {s : State} {i : Instr} {f : DataField} {pc : PulseClass} {ts : Nat → Word} {w : BitVec 32} {j k len : Nat}

/-! ## Consumption -/

theorem Buffer.zeroRun_zeroRun (m : Buffer) (n c k l : Nat) :
    (m.zeroRun n c k).zeroRun n ((c + k) % n) l = m.zeroRun n c (k + l) := by
  induction l with
  | zero => rfl
  | succ l ih =>
    rw [Buffer.zeroRun, ih, Nat.mod_add_mod, Nat.add_assoc]
    rfl

/-- Consumption touches only the buffer and the cursor. -/
theorem State.consume_frame (s : State) (k : Nat) :
    s.consume k = { s with currentIndex := (s.consume k).currentIndex, buf := (s.consume k).buf } := rfl

theorem State.consume_consume (s : State) (k l : Nat) : (s.consume k).consume l = s.consume (k + l) := by
  simp only [State.consume, Buffer.zeroRun_zeroRun, Nat.mod_add_mod, Nat.add_assoc]

/-! ## Buffered edges -/

/-- Fewer than N slots on from the cursor are different slots. -/
theorem slot_ne_of_lt {n c a b : Nat} (hab : a < b) (hb : b < n) : (c + b) % n ≠ (c + a) % n := by
  intro h
  have hmod : b ≡ a [MOD n] := Nat.ModEq.add_left_cancel' c h
  have := hmod.eq_of_lt_of_lt hb (hab.trans hb)
  omega

/-- Consumption leaves the edges behind it, from the new cursor on. -/
theorem holdsEdges_consume (h : s.HoldsEdges s.currentIndex len ts) (hlen : len ≤ s.cfg.bufferSize) (k : Nat) :
    (s.consume k).HoldsEdges (s.consume k).currentIndex (len - k) fun e => ts (k + e) := by
  intro e he
  obtain ⟨hread, hne⟩ := h (k + e) (by omega)
  refine ⟨?_, hne⟩
  rw [State.consume_currentIndex, State.consume_cfg, Nat.mod_add_mod, Nat.add_assoc, State.consume_buf,
    Buffer.read_zeroRun_of_ne _ _ _ fun j hj => slot_ne_of_lt (by omega) (by omega), hread]

theorem snapshot_of_holdsEdges (h : s.HoldsEdges s.currentIndex len ts) (hlen : 4 ≤ len) :
    s.snapshot = ⟨ts 0, ts 1, ts 2, ts 3⟩ := by
  have hread (e : Nat) (he : e < 4) : s.buf.read (s.slot e) = ts e := (h e (by omega)).1
  rw [State.snapshot, hread 0 (by decide), hread 1 (by decide), hread 2 (by decide), hread 3 (by decide)]

/-- R172: the gate passes where the middle two slots hold timestamps. -/
theorem Snapshot.gate_of_ne_zero {x : Snapshot} (h1 : x.t1 ≠ 0#32) (h2 : x.t2 ≠ 0#32) : x.gate = true := by
  have hpos : x.t1 > 0#32 ∧ x.t2 > 0#32 := ⟨(BitVec.pos_iff_ne_zero _).mpr h1, (BitVec.pos_iff_ne_zero _).mpr h2⟩
  simp [Snapshot.gate, hpos]

theorem passing_of_holdsEdges (hinv : s.Inv) (hb : s.phase = .busy) (h : s.HoldsEdges s.currentIndex len ts)
    (hlen : 4 ≤ len) : Passing s := by
  refine ⟨hinv, hb, ?_⟩
  rw [snapshot_of_holdsEdges h hlen]
  exact Snapshot.gate_of_ne_zero (h 1 (by omega)).2 (h 2 (by omega)).2

theorem mark_of_holdsEdges (h : s.HoldsEdges s.currentIndex len ts) (hlen : 4 ≤ len) :
    s.mark.toNat = edgeMark s.cfg ts 0 := by
  rw [State.mark, snapshot_of_holdsEdges h hlen, edgeMark]

theorem space_of_holdsEdges (h : s.HoldsEdges s.currentIndex len ts) (hlen : 4 ≤ len) :
    s.space.toNat = edgeMark s.cfg ts 1 := by
  rw [State.space, snapshot_of_holdsEdges h hlen, edgeMark]

/-! ## The step of a call without outside actions -/

theorem step_of_selects (hm : s.Unmarked) (hl : s.cfg.legal) (hq : s.inputs.next = none) (hsel : s.Selects i) :
    step s = .next (rowEffect i s) := by
  have hturn : nextTurn s = .run i s := by
    obtain ⟨hb, hi⟩ := hsel
    rw [nextTurn_of_unmarked hm.1 hm.2 hl]
    simp only [scheduledTurn, hq, decoderTurn, hb, iterationTurn, hi]
  rw [step_of_turn hturn, exec_of_selects hsel]

/-! ## The word of a frame -/

/-- The field that byte k of a frame fills, and all from byte 3 on (R130 c). -/
def frameField : Nat → DataField
  | 0 => .address
  | 1 => .addressInv
  | 2 => .command
  | _ => .commandInv

/-- The class of the pulse that carries a bit. -/
def bitClass (b : Bool) : PulseClass :=
  if b then .one else .zero

/-- The bits of a word below position j. -/
def lowBits (w : BitVec 32) (j : Nat) : BitVec 32 :=
  (w.setWidth j).setWidth 32

/-- The error-free Message whose data fields are the bytes of a word, lowest first. -/
def wordMessage (v : BitVec 32) : Message :=
  { Message.zero with
    address := v.extractLsb' 0 8, addressInv := v.extractLsb' 8 8
    command := v.extractLsb' 16 8, commandInv := v.extractLsb' 24 8 }

theorem wordMessage_lowBits_zero (w : BitVec 32) : wordMessage (lowBits w 0) = Message.zero := by
  rw [lowBits, BitVec.eq_nil (w.setWidth 0)]
  rfl

theorem lowBits_all (w : BitVec 32) : lowBits w 32 = w := by
  rw [lowBits, BitVec.setWidth_eq, BitVec.setWidth_eq]

/-- Bit j of a word is bit j mod 8 of byte j / 8 (R120). -/
theorem extractLsb'_twoPow_byte : ∀ j < 32, ∀ k < 4,
    (BitVec.twoPow 32 j).extractLsb' (8 * k) 8 = if j / 8 = k then bitAt (j % 8) else 0#8 := by
  decide

/-- A `ONE` as pulse j adds bit j of the word. -/
theorem notePulse_one_wordMessage (hj : j < 32) (v : BitVec 32) :
    (wordMessage v).notePulse (frameField (j / 8)) (j % 8) .one = wordMessage (v ||| BitVec.twoPow 32 j) := by
  have hbyte := extractLsb'_twoPow_byte j hj
  simp only [wordMessage, BitVec.extractLsb'_or, hbyte 0 (by decide), hbyte 1 (by decide), hbyte 2 (by decide),
    hbyte 3 (by decide)]
  have hk : j / 8 < 4 := by omega
  interval_cases j / 8 <;> simp [frameField, Message.notePulse, Message.setData, Message.data]

/-- The pulse of bit j extends the Message of the bits below j to that of the bits up to j (R130 c). -/
theorem notePulse_lowBits (hj : j < 32) (w : BitVec 32) :
    (wordMessage (lowBits w j)).notePulse (frameField (j / 8)) (j % 8) (bitClass (w.getLsbD j)) =
      wordMessage (lowBits w (j + 1)) := by
  cases hb : w.getLsbD j with
  | true =>
    rw [lowBits, lowBits, BitVec.setWidth_setWidth_succ_eq_setWidth_setWidth_or_twoPow_of_getLsbD_true hb]
    exact notePulse_one_wordMessage hj _
  | false =>
    rw [lowBits, lowBits, BitVec.setWidth_setWidth_succ_eq_setWidth_setWidth_of_getLsbD_false hb]
    rfl

/-! ## The state between two pulses -/

/-- A call that has 68 edges of a frame with data w before it and no outside action left. -/
structure FrameBuffered (s : State) (ts : Nat → Word) (w : BitVec 32) : Prop where
  inv : s.Inv
  unmarked : s.Unmarked
  busy : s.phase = .busy
  quiet : s.inputs.next = none
  leadIn : s.state = .leadIn
  size : 68 ≤ s.cfg.bufferSize
  edges : s.HoldsEdges s.currentIndex 68 ts
  lead : 8750 < edgeMark s.cfg ts 0 ∧ edgeMark s.cfg ts 0 < 9250 ∧
    4250 < edgeMark s.cfg ts 1 ∧ edgeMark s.cfg ts 1 < 4750
  data : ∀ j < 32, 500 < edgeMark s.cfg ts (2 * j + 2) ∧ edgeMark s.cfg ts (2 * j + 2) < 600 ∧
    (if w.getLsbD j then 1500 < edgeMark s.cfg ts (2 * j + 3) ∧ edgeMark s.cfg ts (2 * j + 3) < 1800
     else 500 < edgeMark s.cfg ts (2 * j + 3) ∧ edgeMark s.cfg ts (2 * j + 3) < 600)

/-- The registers and the Message after the lead-in and j data pulses of w, for j below 32: the pulse number counts
modulo 8. -/
def State.withPulses (s : State) (w : BitVec 32) (j : Nat) : State :=
  { s with
    state := (frameField (j / 8)).state, pulseNumber := BitVec.ofNat 3 j, msg := wordMessage (lowBits w j) }

/-- The state after the lead-in and j data pulses of w. -/
def State.inFrame (s : State) (w : BitVec 32) (j : Nat) : State :=
  (s.withPulses w j).consume (2 * j + 2)

/-- The registers, the Message and the history after the frame. -/
def State.withFrame (s : State) (w : BitVec 32) : State :=
  { s with pulseNumber := 0#3, msg := wordMessage w, deliveries := s.deliveries ++ [wordMessage w] }

theorem State.Inv.withPulses (h : s.Inv) (w : BitVec 32) (j : Nat) : (s.withPulses w j).Inv :=
  h.with_msg (m := wordMessage (lowBits w j)) fun _ => Nat.two_pow_pos _

/-- The edges from pulse j on. -/
theorem FrameBuffered.edges_inFrame (h : FrameBuffered s ts w) (j : Nat) :
    (s.inFrame w j).HoldsEdges (s.inFrame w j).currentIndex (68 - (2 * j + 2)) fun e => ts (2 * j + 2 + e) :=
  holdsEdges_consume h.edges h.size _

theorem FrameBuffered.passing_inFrame (h : FrameBuffered s ts w) (hj : j < 32) : Passing (s.inFrame w j) :=
  passing_of_holdsEdges ((h.inv.withPulses w j).consume _) h.busy (h.edges_inFrame j) (by omega)

/-- Pulse j carries bit j. -/
theorem FrameBuffered.decodePulse_inFrame (h : FrameBuffered s ts w) (hj : j < 32) :
    decodePulse (s.inFrame w j).mark (s.inFrame w j).space = bitClass (w.getLsbD j) := by
  have hmark : (s.inFrame w j).mark.toNat = edgeMark s.cfg ts (2 * j + 2) :=
    mark_of_holdsEdges (h.edges_inFrame j) (by omega)
  have hspace : (s.inFrame w j).space.toNat = edgeMark s.cfg ts (2 * j + 3) :=
    space_of_holdsEdges (h.edges_inFrame j) (by omega)
  have hdata := h.data j hj
  rw [← hmark, ← hspace] at hdata
  obtain ⟨hlo, hhi, hbit⟩ := hdata
  cases hb : w.getLsbD j with
  | true =>
    rw [hb, if_pos rfl] at hbit
    exact decodePulse_eq_one_iff.mpr ⟨⟨hlo, hhi⟩, hbit⟩
  | false =>
    rw [hb, if_neg Bool.false_ne_true] at hbit
    exact decodePulse_eq_zero_iff.mpr ⟨⟨hlo, hhi⟩, hbit⟩

/-! ## The steps of the frame -/

theorem withPulses_zero (s : State) (w : BitVec 32) :
    s.withPulses w 0 = s.clearMessage.completeField .address := by
  rw [State.withPulses, wordMessage_lowBits_zero]
  rfl

theorem FrameBuffered.step_leadStart (h : FrameBuffered s ts w) : step s = .next (s.inFrame w 0) := by
  have hstart : StartPulse s := by
    unfold StartPulse
    rw [mark_of_holdsEdges h.edges (by decide), space_of_holdsEdges h.edges (by decide)]
    exact h.lead
  have hsel : s.Selects .leadStart := by
    refine selects_of_passing (passing_of_holdsEdges h.inv h.busy h.edges (by decide)) ?_
    rw [h.leadIn, leadClass_eq_start_iff_startPulse.mpr hstart]
    rfl
  rw [step_of_selects h.unmarked h.inv.legal h.quiet hsel, State.inFrame, withPulses_zero]
  rfl

/-- A data pulse that is not the frame's last, without its consumption: the pulse number wraps to 0 where the field is
complete. -/
def State.innerPulse (f : DataField) (pc : PulseClass) (s : State) : State :=
  { s.notePulse f s.pulseNumber.toNat pc with
    state := if s.pulseNumber = 7#3 then f.next else f.state
    pulseNumber := s.pulseNumber + 1#3 }

theorem rowEffect_dataRow_inner (hs : s.state = f.state) (hf : s.pulseNumber = 7#3 → f ≠ .commandInv) :
    rowEffect (dataRow f (decide (s.pulseNumber = 7#3)) pc) s = (s.innerPulse f pc).consume 2 := by
  unfold State.innerPulse
  by_cases h7 : s.pulseNumber = 7#3
  · rw [decide_eq_true h7, rowEffect_dataRow_end (hf h7), if_pos h7, h7]
    rfl
  · rw [decide_eq_false h7, rowEffect_dataRow_bit, if_neg h7, ← hs]
    rfl

theorem State.innerPulse_consume (s : State) (f : DataField) (pc : PulseClass) (k : Nat) :
    (s.consume k).innerPulse f pc = (s.innerPulse f pc).consume k := rfl

theorem frameField_ne_commandInv : ∀ j < 31, BitVec.ofNat 3 j = 7#3 → frameField (j / 8) ≠ .commandInv := by
  decide

theorem frameField_succ_state : ∀ j < 31,
    (if BitVec.ofNat 3 j = 7#3 then (frameField (j / 8)).next else (frameField (j / 8)).state) =
      (frameField ((j + 1) / 8)).state := by
  decide

/-- Pulse j moves the registers and the Message on to those after j + 1 pulses. -/
theorem innerPulse_withPulses (hj : j < 31) (s : State) (w : BitVec 32) :
    (s.withPulses w j).innerPulse (frameField (j / 8)) (bitClass (w.getLsbD j)) = s.withPulses w (j + 1) :=
  calc (s.withPulses w j).innerPulse (frameField (j / 8)) (bitClass (w.getLsbD j))
      = { s with
          state := if BitVec.ofNat 3 j = 7#3 then (frameField (j / 8)).next else (frameField (j / 8)).state
          pulseNumber := BitVec.ofNat 3 j + 1#3
          msg := (wordMessage (lowBits w j)).notePulse (frameField (j / 8)) (j % 8) (bitClass (w.getLsbD j)) } := rfl
    _ = s.withPulses w (j + 1) := by
      rw [frameField_succ_state j hj, ← BitVec.ofNat_add, notePulse_lowBits (by omega), State.withPulses]

theorem FrameBuffered.step_inFrame (h : FrameBuffered s ts w) (hsel : (s.inFrame w j).Selects i) :
    step (s.inFrame w j) = .next (rowEffect i (s.inFrame w j)) :=
  step_of_selects (s := s.inFrame w j) h.unmarked h.inv.legal h.quiet hsel

theorem FrameBuffered.step_pulse (h : FrameBuffered s ts w) (hj : j < 31) :
    step (s.inFrame w j) = .next (s.inFrame w (j + 1)) := by
  have hj' : j < 32 := by omega
  have hsel := selects_dataRow (h.passing_inFrame hj') rfl (h.decodePulse_inFrame hj')
  rw [h.step_inFrame hsel, rowEffect_dataRow_inner (s := s.inFrame w j) rfl (frameField_ne_commandInv j hj),
    State.inFrame, State.innerPulse_consume, innerPulse_withPulses hj, State.consume_consume]
  rfl

/-! ## The end of the frame -/

/-- Where the trailing edge is there, a frame's end notes nothing about it (R175). -/
theorem State.frameEnd_of_ne_zero {v : Word} (hv : v ≠ 0#32) (s : State) :
    s.frameEnd v = (s.completeField .leadIn).deliver.consume 4 := by
  rw [State.frameEnd, State.requestClear, if_neg hv]

theorem State.lastPulse_consume (s : State) (f : DataField) (n : Nat) (pc : PulseClass) (q : ProtoState) (k : Nat) :
    (((s.consume k).notePulse f n pc).completeField q).deliver =
      ((s.notePulse f n pc).completeField q).deliver.consume k := rfl

/-- The last pulse of the frame, without its consumption, completes the Message, which is delivered. -/
theorem deliver_lastPulse_withPulses (hs : s.state = .leadIn) (w : BitVec 32) :
    (((s.withPulses w 31).notePulse .commandInv 7 (bitClass (w.getLsbD 31))).completeField .leadIn).deliver =
      s.withFrame w := by
  have hmsg : (wordMessage (lowBits w 31)).notePulse .commandInv 7 (bitClass (w.getLsbD 31)) = wordMessage w :=
    (notePulse_lowBits (by decide) w).trans (congrArg wordMessage (lowBits_all w))
  rw [State.withFrame, ← hmsg, ← hs]
  rfl

theorem FrameBuffered.step_last (h : FrameBuffered s ts w) :
    step (s.inFrame w 31) = .next ((s.withFrame w).consume 68) := by
  have hedges := h.edges_inFrame 31
  have hsel := selects_dataRow_last (f := .commandInv) (h.passing_inFrame (j := 31) (by decide)) rfl
    (h.decodePulse_inFrame (j := 31) (by decide)) rfl
  have ht3 : (s.inFrame w 31).snapshot.t3 ≠ 0#32 := by
    rw [snapshot_of_holdsEdges hedges (by decide)]
    exact (hedges 3 (by decide)).2
  rw [h.step_inFrame hsel, rowEffect_dataRow_frame, State.frameEnd_of_ne_zero ht3, State.inFrame,
    State.lastPulse_consume, deliver_lastPulse_withPulses h.leadIn w, State.consume_consume]

/-! ## The run -/

/-- From pulse j on, the d pulses before the last and the last itself run to the end of the frame. -/
theorem FrameBuffered.run_inFrame (h : FrameBuffered s ts w) (d j : Nat) (hd : j + d = 31) :
    Sys2Proof.core.run (d + 1) (s.inFrame w j) = .next ((s.withFrame w).consume 68) := by
  induction d generalizing j with
  | zero =>
    obtain rfl : j = 31 := hd
    exact core_run_of_step h.step_last
  | succ d ih =>
    rw [core_run_of_step (h.step_pulse (by omega))]
    exact ih (j + 1) (by omega)

theorem FrameBuffered.run (h : FrameBuffered s ts w) :
    Sys2Proof.core.run 33 s = .next ((s.withFrame w).consume 68) :=
  (core_run_of_step (k := 32) h.step_leadStart).trans (h.run_inFrame 31 0 rfl)

/-- Settles O53: `LEAD.START`, then the 32 pulses, one bit of w each. -/
theorem fullFrameRoundTrip : Obligations.FullFrameRoundTrip := by
  intro s ts w hinv hm hb hq hs hn hedges hm0 hm1 hs0 hs1 hdata
  have h : FrameBuffered s ts w := ⟨hinv, hm, hb, hq, hs, hn, hedges, ⟨hm0, hm1, hs0, hs1⟩, hdata⟩
  exact ⟨_, h.run, hinv.consumes_consume 68, State.consume_frame _ 68⟩

end Sys2Proof.Machine
end

section
/-! # Pulse timing: the measurer and the two classifiers

What `duration` and `us` are on numbers (42_pulse_timing.md R150, R151, R157), and every outcome of the lead-in and
the pulse classifier by its ranges (R154, R155, R156). -/

namespace Sys2Proof

theorem LeadClass.eq_none_iff {k : LeadClass} : k = .none ↔ k ≠ .start ∧ k ≠ .repeatCode := by
  cases k <;> decide

theorem PulseClass.eq_invalid_iff {k : PulseClass} : k = .invalid ↔ k ≠ .one ∧ k ≠ .zero := by
  cases k <;> decide

end Sys2Proof

namespace Sys2Proof.Machine

variable {p f t c d m : Word} {lo hi : Nat}

/-! ## The measurer -/

theorem duration_of_lt (h : t.toNat < f.toNat) : duration p f t = p - f + t := if_pos h

theorem duration_of_le (h : f.toNat ≤ t.toNat) : duration p f t = t - f := if_neg (Nat.not_lt.mpr h)

/-- Without a wrap of the counter the difference is exact. -/
theorem duration_toNat_of_le (h : f.toNat ≤ t.toNat) : (duration p f t).toNat = t.toNat - f.toNat := by
  rw [duration_of_le h, BitVec.toNat_sub_of_le h]

/-- After a wrap the difference is the integer one modulo 2^32, whatever PERIOD is (R150, corner case c). -/
theorem duration_toNat_of_lt (h : t.toNat < f.toNat) :
    ((duration p f t).toNat : Int) = ((p.toNat : Int) - (f.toNat : Int) + (t.toNat : Int)) % (2 ^ 32 : Int) := by
  rw [duration_of_lt h, BitVec.toNat_add, BitVec.toNat_sub]
  have hf := f.isLt
  omega

/-- After a wrap from a timestamp within PERIOD nothing wraps a second time (R150, corner case c; R157 c). -/
theorem duration_toNat_of_lt_of_le_period (h : t.toNat < f.toNat) (hp : f.toNat ≤ p.toNat) :
    (duration p f t).toNat = p.toNat - f.toNat + t.toNat := by
  have hsub : (p - f).toNat = p.toNat - f.toNat := BitVec.toNat_sub_of_le hp
  have hlt : (p - f).toNat + t.toNat < 2 ^ 32 := by
    have hp32 := p.isLt
    omega
  rw [duration_of_lt h, BitVec.toNat_add_of_lt hlt, hsub]

theorem us_toNat : (us c d).toNat = d.toNat / c.toNat := BitVec.toNat_udiv

theorem lt_us_iff (hc : 0 < c.toNat) : lo < (us c d).toNat ↔ (lo + 1) * c.toNat ≤ d.toNat := by
  rw [us_toNat, Nat.lt_iff_add_one_le, Nat.le_div_iff_mul_le hc]

theorem us_lt_iff (hc : 0 < c.toNat) : (us c d).toNat < hi ↔ d.toNat + 1 ≤ hi * c.toNat := by
  rw [us_toNat, Nat.div_lt_iff_lt_mul hc, Nat.lt_iff_add_one_le]

/-- Settles O7, by the two branches of `duration`. -/
theorem durationIsWraparoundDifference : Obligations.DurationIsWraparoundDifference :=
  fun _ _ _ => ⟨duration_toNat_of_lt, duration_toNat_of_le⟩

/-- Settles O8: the integer difference lies below PERIOD as it stands, or after PERIOD is added once. -/
theorem durationIsElapsedTicksModuloPeriod : Obligations.DurationIsElapsedTicksModuloPeriod := by
  intro p f t hf ht
  obtain hle | hlt := le_or_gt f.toNat t.toNat
  · have hticks : ((duration p f t).toNat : Int) = (t.toNat : Int) - f.toNat := by
      rw [duration_toNat_of_le hle, Nat.cast_sub hle]
    rw [hticks, Int.emod_eq_of_lt (by omega) (by omega)]
  · have hticks : ((duration p f t).toNat : Int) = (t.toNat : Int) - f.toNat + p.toNat := by
      rw [duration_toNat_of_lt_of_le_period hlt hf.le]
      omega
    rw [hticks, ← Int.add_emod_right, Int.emod_eq_of_lt (by omega) (by omega)]

/-- Settles O9, one bound of the interval at a time. -/
theorem microsecondsTruncate : Obligations.MicrosecondsTruncate :=
  fun _ _ _ _ hc => ⟨us_toNat, and_congr (lt_us_iff hc) (us_lt_iff hc)⟩

/-! ## The classifiers -/

theorem leadClass_eq_none_iff :
    leadClass m p = .none ↔ ¬ (inOpen 8750 9250 m ∧ (inOpen 4250 4750 p ∨ inOpen 2250 2750 p)) := by
  rw [LeadClass.eq_none_iff, ne_eq, ne_eq, leadClass_eq_start_iff, leadClass_eq_repeatCode_iff, ← not_or,
    ← and_or_left]

theorem decodePulse_eq_invalid_iff :
    decodePulse m p = .invalid ↔ ¬ (inOpen 500 600 m ∧ (inOpen 1500 1800 p ∨ inOpen 500 600 p)) := by
  rw [PulseClass.eq_invalid_iff, ne_eq, ne_eq, decodePulse_eq_one_iff, decodePulse_eq_zero_iff, ← not_or,
    ← and_or_left]

/-- Settles O10, class by class. -/
theorem leadClassRanges : Obligations.LeadClassRanges :=
  fun _ _ => ⟨leadClass_eq_start_iff.trans and_assoc, leadClass_eq_repeatCode_iff.trans and_assoc,
    leadClass_eq_none_iff.trans (not_congr and_assoc)⟩

/-- Settles O11, class by class. -/
theorem pulseClassRanges : Obligations.PulseClassRanges :=
  fun _ _ => ⟨decodePulse_eq_one_iff.trans and_assoc, decodePulse_eq_zero_iff.trans and_assoc,
    decodePulse_eq_invalid_iff.trans (not_congr and_assoc)⟩

end Sys2Proof.Machine
end

section
/-! # Buffer: the validity gate and what a row consumes

The gate on numbers (43_buffer.md R172) and on every zero pattern (R179); the consumption table (R173). -/

namespace Sys2Proof.Machine

open Sys2Proof.Claims

variable {s t : State} {i : Instr} {r : Reg} {p : ProtoState × ProtoState}

/-! ## The gate -/

/-- Settles O12, term for term. -/
theorem gateFormula : Obligations.GateFormula := by
  intro x
  simp only [Snapshot.gate, Bool.or_eq_true, Bool.and_eq_true, decide_eq_true_eq, gt_iff_lt, BitVec.lt_def,
    BitVec.toNat_ofNat, Nat.zero_mod, or_assoc, and_assoc]

theorem Snapshot.gate_eq_false_iff {x : Snapshot} :
    x.gate = false ↔ ¬ (0 < x.t1.toNat ∧ 0 < x.t2.toNat) ∧
      ¬ (x.t2.toNat < x.t0.toNat ∧ 0 < x.t0.toNat ∧ 0 < x.t2.toNat) ∧
      ¬ (0 < x.t0.toNat ∧ 0 < x.t1.toNat ∧ x.t3.toNat < x.t1.toNat ∧ 0 < x.t3.toNat) := by
  rw [← Bool.not_eq_true, gateFormula, not_or, not_or]

theorem word_eq_zero_iff (v : Word) : v = 0#32 ↔ v.toNat = 0 := BitVec.toNat_eq

/-- Settles O13: a slot that reads 0 takes out the gate's terms that name it; what is left of them is arithmetic. -/
theorem gateZeroPatterns : Obligations.GateZeroPatterns := by
  intro t0 t1 t2 t3 g
  have htrue : g = true ↔ _ := gateFormula ⟨t0, t1, t2, t3⟩
  have hfalse : g = false ↔ _ := Snapshot.gate_eq_false_iff (x := ⟨t0, t1, t2, t3⟩)
  rw [hfalse, htrue]
  simp only [ne_eq, word_eq_zero_iff]
  omega

/-! ## The consumption table -/

theorem consumes_of_exec_row (hinv : s.Inv) (hr : Instr.isRow i = true) (hx : exec i s = .next t) :
    Consumes (Instr.consumed i) s t := by
  obtain ⟨⟨hbusy, -⟩, rfl⟩ := (exec_row_eq_next_iff hr).mp hx
  exact consumes_rowEffect hinv hbusy i

theorem consumed_of_edge (he : edge i = some p) (hskip : i ≠ .leadSkip) (hrep : i ≠ .leadRepeat)
    (hframe : ¬ FrameRow i) : Instr.consumed i = 2 := by
  cases i
  case init | decode | rdreg | wrreg | ret => cases he
  case leadSkip => exact absurd rfl hskip
  case leadRepeat => exact absurd rfl hrep
  case cinvFrameX | cinvFrame0 | cinvFrame1 => simp [FrameRow] at hframe
  all_goals rfl

theorem State.writeReg_currentIndex_of_ne {d : Word} (h : r ≠ .currentIndex) :
    (s.writeReg d r).currentIndex = s.currentIndex := by
  cases r
  case currentIndex => exact absurd rfl h
  all_goals rfl

/-- Settles O45: a row consumes what the table says, and a command but `INIT` and `WRREG currentIndex` leaves the
cursor. -/
theorem onlyConsumptionMovesTheCursor : Obligations.OnlyConsumptionMovesTheCursor := by
  intro i s t hinv hx
  refine ⟨?_, ?_, ?_, fun p he hskip hrep hframe => ?_, ?_⟩
  · rintro rfl
    obtain ⟨-, rfl⟩ := (exec_row_eq_next_iff rfl).mp hx
    exact ⟨rfl, rfl⟩
  · rintro rfl
    exact consumes_of_exec_row hinv rfl hx
  · rintro (rfl | rfl | rfl | rfl)
    all_goals exact consumes_of_exec_row hinv rfl hx
  · rw [← consumed_of_edge he hskip hrep hframe]
    exact consumes_of_exec_row hinv (isRow_of_edge he) hx
  · rintro (rfl | ⟨r, rfl⟩ | ⟨r, d, rfl, hr⟩)
    · obtain ⟨-, -, rfl⟩ := exec_decode_eq_next_iff.mp hx
      rw [s.deferredClear_frame]
    · obtain ⟨-, -, rfl⟩ := exec_rdreg_eq_next_iff.mp hx
      rfl
    · obtain ⟨-, -, -, -, rfl⟩ := exec_wrreg_eq_next_iff.mp hx
      exact State.writeReg_currentIndex_of_ne hr

end Sys2Proof.Machine
end

section
/-! # Buffer: when a call ends

A bound on the passing iterations that the buffer has in it, which every passing iteration lowers (43_buffer.md R178) and
a write raises by at most 2; so a call ends once the outside actions do (70_reset_and_hazards.md R254). -/

namespace Sys2Proof.Machine

open Sys2Proof.Claims

variable {s t : State} {i : Instr} {rest : Schedule} {e : Input} {v : Word} {j k : Nat}

/-! ## How many passing iterations are left -/

/-- The gate passes only where the slot at the cursor or both slots after it hold timestamps (R179). -/
theorem Snapshot.ne_zero_of_gate {x : Snapshot} (h : x.gate = true) :
    x.t0 ≠ 0#32 ∨ (x.t1 ≠ 0#32 ∧ x.t2 ≠ 0#32) := by
  have hterms := (gateFormula x).mp h
  simp only [ne_eq, word_eq_zero_iff]
  omega

/-- A bound on the passing iterations that the buffer still has in it: two for each nonzero slot, one less where the
cursor stands on such a slot already, so that a step that only moves the cursor onto one counts too (R178). -/
def State.passesLeft (s : State) : Nat :=
  2 * s.nonzeroSlots - if s.snapshot.t0 = 0#32 then 0 else 1

theorem passesLeft_of_zero (h : s.snapshot.t0 = 0#32) : s.passesLeft = 2 * s.nonzeroSlots := by
  rw [State.passesLeft, if_pos h, Nat.sub_zero]

theorem passesLeft_of_ne_zero (h : s.snapshot.t0 ≠ 0#32) : s.passesLeft = 2 * s.nonzeroSlots - 1 := by
  rw [State.passesLeft, if_neg h]

theorem passesLeft_le (s : State) : s.passesLeft ≤ 2 * s.nonzeroSlots := Nat.sub_le _ _

theorem nonzeroSlots_consume_le (s : State) (k : Nat) : (s.consume k).nonzeroSlots ≤ s.nonzeroSlots :=
  Buffer.length_zeroRun_le _ _ _ _

theorem nonzeroSlots_consume_one (h : s.Inv) (h0 : s.snapshot.t0 ≠ 0#32) :
    (s.consume 1).nonzeroSlots + 1 = s.nonzeroSlots :=
  Buffer.length_write_zero_of_read_ne s.buf h.buf_wf h0

/-- Passing one slot brings the next one under the cursor, unless the two are the same slot. -/
theorem snapshot_consume_one (h : s.snapshot.t1 ≠ s.snapshot.t0) : (s.consume 1).snapshot.t0 = s.snapshot.t1 := by
  have hslot : s.slot 1 ≠ s.slot 0 := fun e => h (congrArg s.buf.read e)
  calc (s.consume 1).snapshot.t0
      = (s.buf.write (s.slot 0) 0#32).read (s.slot 1 % s.cfg.bufferSize) := rfl
    _ = (s.buf.write (s.slot 0) 0#32).read (s.slot 1) := by rw [State.slot, State.slot, Nat.mod_mod]
    _ = s.snapshot.t1 := Buffer.read_write_of_ne _ _ hslot

/-- Consuming further slots leaves at most what the first j left. -/
theorem passesLeft_consume_le (s : State) (hj : j ≤ k) :
    (s.consume k).passesLeft ≤ 2 * (s.consume j).nonzeroSlots := by
  obtain ⟨m, rfl⟩ := Nat.exists_eq_add_of_le hj
  rw [← State.consume_consume]
  exact (passesLeft_le _).trans (Nat.mul_le_mul_left 2 (nonzeroSlots_consume_le _ m))

/-- R178: a passing iteration zeroes a nonzero slot or moves the cursor onto one. -/
theorem passesLeft_consume_lt (h : s.Inv) (hg : s.snapshot.gate = true) (hk : 0 < k) :
    (s.consume k).passesLeft < s.passesLeft := by
  by_cases h0 : s.snapshot.t0 = 0#32
  · have h1 : s.snapshot.t1 ≠ 0#32 := ((Snapshot.ne_zero_of_gate hg).resolve_left (· h0)).1
    have hcur : (s.consume 1).snapshot.t0 ≠ 0#32 := by rwa [snapshot_consume_one (by rwa [h0])]
    have hfirst := nonzeroSlots_consume_le s 1
    have hsecond := nonzeroSlots_consume_one (h.consume 1) hcur
    rw [passesLeft_of_zero h0]
    obtain rfl | h2 : k = 1 ∨ 2 ≤ k := by omega
    · rw [passesLeft_of_ne_zero hcur]
      omega
    · have hle := passesLeft_consume_le s h2
      rw [← State.consume_consume s 1 1] at hle
      omega
  · have hfirst := nonzeroSlots_consume_one h h0
    have hle := passesLeft_consume_le (j := 1) s hk
    rw [passesLeft_of_ne_zero h0]
    omega

/-! ## What an iteration leaves of the call -/

@[simp] theorem rowEffect_inputs (i : Instr) (s : State) : (rowEffect i s).inputs = s.inputs := by
  cases i <;> rfl

@[simp] theorem rowEffect_faultMark (i : Instr) (s : State) : (rowEffect i s).faultMark = s.faultMark := by
  cases i <;> rfl

@[simp] theorem rowEffect_refusalMark (i : Instr) (s : State) : (rowEffect i s).refusalMark = s.refusalMark := by
  cases i <;> rfl

/-- Only `RETURN` ends the call, and it alone of the rows consumes nothing (44_control.md R193). -/
theorem rowEffect_phase (h : 0 < Instr.consumed i) : (rowEffect i s).phase = s.phase := by
  cases i
  case init | decode | rdreg | wrreg | ret => cases h
  all_goals rfl

theorem consumed_rowFor_pos (q : ProtoState) (last : Bool) (lc : LeadClass) (pc : PulseClass) :
    0 < Instr.consumed (rowFor q last lc pc) := by
  cases q
  case leadIn => cases lc <;> exact Nat.zero_lt_succ _
  all_goals cases last <;> cases pc <;> exact Nat.zero_lt_succ _

/-- A busy block's iteration returns, or consumes slots behind a passing gate (R192). -/
theorem exists_selects (hb : s.phase = .busy) :
    ∃ i, s.Selects i ∧ (i = .ret ∨ (s.snapshot.gate = true ∧ 0 < Instr.consumed i)) := by
  refine ⟨_, (s.selects_iff _).mpr ⟨hb, rfl⟩, ?_⟩
  cases s.snapshot.gate with
  | false => exact .inl rfl
  | true => exact .inr ⟨rfl, consumed_rowFor_pos _ _ _ _⟩

theorem passesLeft_rowEffect (h : s.Inv) (hb : s.phase = .busy) (i : Instr) :
    (rowEffect i s).passesLeft = (s.consume (Instr.consumed i)).passesLeft := by
  have hslot : (rowEffect i s).slot 0 = (s.consume (Instr.consumed i)).slot 0 := by
    rw [State.slot, State.slot, rowEffect_currentIndex h hb, rowEffect_cfg]
    rfl
  rw [State.passesLeft, State.passesLeft, State.snapshot, State.snapshot, hslot, State.nonzeroSlots, rowEffect_buf]
  rfl

/-! ## The step of a Busy block -/

/-- With nothing scheduled, or a host action waiting, the decoder moves (60_exceptions.md R213). -/
theorem step_of_leavesTheMove (hm : s.Unmarked) (hl : s.cfg.legal) (hq : LeavesTheMove s) (hsel : s.Selects i) :
    step s = .next (rowEffect i s) := by
  have hturn : nextTurn s = .run i s := by
    obtain ⟨hcap, hdec⟩ := hq
    obtain ⟨hb, hi⟩ := hsel
    rw [nextTurn_of_unmarked hm.1 hm.2 hl]
    rcases hin : s.inputs.next with _ | ⟨⟨cmd, data⟩ | ⟨k, v⟩ | k | ⟨k, v⟩ | _, rest⟩
    case some.capture => exact absurd hin (hcap k v rest)
    case some.decoder => exact absurd hin (hdec rest)
    all_goals simp only [scheduledTurn, hin, decoderTurn, hb, iterationTurn, hi]
  rw [step_of_turn hturn, exec_of_selects hsel]

theorem iterationTurn_of_decode (h : decodeSelector s.selector = some i) : iterationTurn s = .run i s := by
  rw [iterationTurn, h]

/-- The decoder takes the step that the schedule gives it. -/
theorem step_of_decoder (hm : s.Unmarked) (hl : s.cfg.legal) (hq : s.inputs.next = some (.decoder, rest))
    (hsel : s.Selects i) : step s = .next (rowEffect i { s with inputs := rest }) := by
  have hturn : nextTurn s = .run i { s with inputs := rest } := by
    obtain ⟨hb, hi⟩ := hsel
    rw [nextTurn_of_unmarked hm.1 hm.2 hl]
    simp only [scheduledTurn, hq, decoderTurn, hb]
    exact iterationTurn_of_decode hi
  rw [step_of_turn hturn]
  exact exec_of_selects ((s.selects_inputs rest i).mpr hsel)

/-- A schedule that ends gives its listed actions and then nothing. -/
theorem Schedule.next_cases {q : Schedule} (h : q.onward = .quiet ∨ q.onward = .cycle []) :
    q.next = none ∧ q.listed = [] ∨
      ∃ e rest, q.next = some (e, rest) ∧ q.listed = e :: rest.listed ∧ rest.onward = q.onward := by
  obtain ⟨_ | ⟨e, l⟩, o⟩ := q
  · exact .inl ⟨Schedule.next_eq_none_iff.mpr ⟨rfl, h⟩, rfl⟩
  · exact .inr ⟨e, ⟨l, o⟩, rfl, rfl, rfl⟩

/-! ## What a write does to the bound -/

theorem Buffer.length_write_le (m : Buffer) (k : Nat) (v : Word) : (m.write k v).length ≤ m.length + 1 := by
  induction m with
  | nil =>
    simp only [Buffer.write]
    split <;> simp
  | cons p m ih =>
    obtain ⟨b, w⟩ := p
    simp only [Buffer.write]
    split_ifs
    all_goals
      simp only [List.length_cons]
      omega

/-- A write makes room for at most two more passing iterations. -/
theorem passesLeft_write_le (h : s.Inv) (hbuf : t.buf = s.buf.write k v) (hslot : t.slot 0 = s.slot 0) :
    t.passesLeft ≤ s.passesLeft + 2 := by
  have hnew : t.snapshot.t0 = (s.buf.write k v).read (s.slot 0) := by rw [State.snapshot, hbuf, hslot]
  have hlen : t.nonzeroSlots ≤ s.nonzeroSlots + 1 := by
    rw [State.nonzeroSlots, hbuf]
    exact Buffer.length_write_le _ _ _
  have hle := passesLeft_le t
  by_cases h0 : s.snapshot.t0 = 0#32
  · rw [passesLeft_of_zero h0]
    omega
  · rw [passesLeft_of_ne_zero h0]
    by_cases h0' : t.snapshot.t0 = 0#32
    · have hk : s.slot 0 = k := by
        by_contra hk
        rw [hnew, Buffer.read_write_of_ne s.buf v hk] at h0'
        exact h0 h0'
      have hv : v = 0#32 := by rw [← h0', hnew, hk, Buffer.read_write_same h.buf_wf]
      have hclear : t.nonzeroSlots ≤ s.nonzeroSlots := by
        rw [State.nonzeroSlots, hbuf, hv]
        exact Buffer.length_write_zero_le _ _
      omega
    · rw [passesLeft_of_ne_zero h0']
      omega

/-! ## A call that ends -/

/-- A call with finitely many outside actions to come, all on existing slots: R254's premise. -/
structure EndingCall (s : State) : Prop where
  inv : s.Inv
  unmarked : s.Unmarked
  busy : s.phase = .busy
  ends : s.inputs.onward = .quiet ∨ s.inputs.onward = .cycle []
  wf : ∀ e ∈ s.inputs.listed, e.wf s.cfg.bufferSize = true

/-- A bound on the steps before the one that returns: an action takes a step itself and may make room for two. -/
def State.callBound (s : State) : Nat :=
  s.passesLeft + 3 * s.inputs.listed.length

theorem callBound_write_le (h : s.Inv) (hbuf : t.buf = s.buf.write k v) (hslot : t.slot 0 = s.slot 0)
    (hin : t.inputs = s.inputs) : t.callBound ≤ s.callBound + 2 := by
  have hle := passesLeft_write_le h hbuf hslot
  rw [State.callBound, State.callBound, hin]
  omega

/-- An iteration ends the call or brings its end nearer. -/
theorem EndingCall.iteration (h : EndingCall s) :
    ∃ i, s.Selects i ∧
      ((rowEffect i s).phase = .idle ∨ EndingCall (rowEffect i s) ∧ (rowEffect i s).callBound < s.callBound) := by
  obtain ⟨i, hsel, rfl | ⟨hg, hpos⟩⟩ := exists_selects h.busy
  · exact ⟨_, hsel, .inl rfl⟩
  · refine ⟨i, hsel, .inr ⟨⟨h.inv.rowEffect i, ?_, ?_, ?_, ?_⟩, ?_⟩⟩
    · exact ⟨(rowEffect_faultMark i s).trans h.unmarked.1, (rowEffect_refusalMark i s).trans h.unmarked.2⟩
    · rw [rowEffect_phase hpos]
      exact h.busy
    · simpa using h.ends
    · simpa using h.wf
    · have hlt := passesLeft_consume_lt h.inv hg hpos
      rw [State.callBound, State.callBound, passesLeft_rowEffect h.inv h.busy, rowEffect_inputs]
      omega

/-- The call goes on with its first listed action taken. -/
theorem EndingCall.take (h : EndingCall s) (hl : s.inputs.listed = e :: rest.listed)
    (ho : rest.onward = s.inputs.onward) : EndingCall { s with inputs := rest } := by
  refine ⟨h.inv, h.unmarked, h.busy, ho ▸ h.ends, fun e' he => h.wf e' ?_⟩
  rw [hl]
  exact List.mem_cons_of_mem e he

theorem callBound_take (hl : s.inputs.listed = e :: rest.listed) :
    ({ s with inputs := rest } : State).callBound + 3 = s.callBound := by
  rw [State.callBound, State.callBound, hl]
  rfl

/-- Every step ends the call or brings its end nearer. -/
theorem EndingCall.step (h : EndingCall s) :
    ∃ t, step s = .next t ∧ (t.phase = .idle ∨ EndingCall t ∧ t.callBound < s.callBound) := by
  have waits (hq : LeavesTheMove s) :
      ∃ t, Machine.step s = .next t ∧ (t.phase = .idle ∨ EndingCall t ∧ t.callBound < s.callBound) := by
    obtain ⟨i, hsel, hend⟩ := h.iteration
    exact ⟨_, step_of_leavesTheMove h.unmarked h.inv.legal hq hsel, hend⟩
  obtain ⟨hnext, -⟩ | ⟨e, rest, hnext, hlisted, honward⟩ := Schedule.next_cases h.ends
  · exact waits (by simp [LeavesTheMove, hnext])
  · have htake := h.take hlisted honward
    have hbound := callBound_take hlisted
    cases e with
    | command | hostWrite | hostRead => exact waits (by simp [LeavesTheMove, hnext])
    | decoder =>
      obtain ⟨i, hsel, hend⟩ := htake.iteration
      refine ⟨_, step_of_decoder h.unmarked h.inv.legal hnext hsel, hend.imp_right fun hgo => ⟨hgo.1, ?_⟩⟩
      exact hgo.2.trans (by omega)
    | capture k v =>
      have hk : k < s.cfg.bufferSize := by simpa [Input.wf] using h.wf (.capture k v) (by simp [hlisted])
      have hstep := (step_of_capture h.unmarked h.inv.legal hnext).trans (writeSlot_of_lt hk)
      have hwritten := htake.inv.with_buf (Buffer.wf_write h.inv.buf_wf hk v)
      refine ⟨_, hstep, .inr ⟨⟨hwritten, h.unmarked, h.busy, htake.ends, htake.wf⟩, ?_⟩⟩
      refine lt_of_le_of_lt (callBound_write_le htake.inv rfl rfl rfl) ?_
      omega

/-! ## The run of a call that ends -/

theorem staysBusy_zero (hb : s.phase = .busy) : StaysBusy s 0 := ⟨s, rfl, hb⟩

theorem staysBusy_succ (h : step s = .next t) (ht : StaysBusy t k) : StaysBusy s (k + 1) := by
  rwa [StaysBusy, core_run_of_step h]

/-- The call runs for at most `callBound` steps and then returns. -/
theorem EndingCall.run (h : EndingCall s) :
    ∃ k ≤ s.callBound, (∀ j ≤ k, StaysBusy s j) ∧ ∃ t, Sys2Proof.core.run (k + 1) s = .next t ∧ t.phase = .idle := by
  induction hb : s.callBound using Nat.strong_induction_on generalizing s with
  | _ b ih =>
    obtain ⟨t, hstep, hidle | ⟨ht, hlt⟩⟩ := h.step
    · refine ⟨0, Nat.zero_le b, fun j hj => ?_, t, core_run_of_step (k := 0) hstep, hidle⟩
      obtain rfl := Nat.le_zero.mp hj
      exact staysBusy_zero h.busy
    · obtain ⟨k, hk, hbusy, u, hrun, hu⟩ := ih _ (hb ▸ hlt) ht rfl
      refine ⟨k + 1, by omega, fun j hj => ?_, u, (core_run_of_step hstep).trans hrun, hu⟩
      cases j with
      | zero => exact staysBusy_zero h.busy
      | succ j => exact staysBusy_succ hstep (hbusy j (Nat.le_of_succ_le_succ hj))

/-- Settles O56: L actions on top of what P nonzero slots allow. -/
theorem callEndsOnceTheProducerStops : Obligations.CallEndsOnceTheProducerStops := by
  intro s hinv hm hb hquiet hwf
  obtain ⟨k, hk, -, hend⟩ := EndingCall.run ⟨hinv, hm, hb, .inl hquiet, hwf⟩
  have hle := passesLeft_le s
  rw [State.callBound] at hk
  exact ⟨k + 1, by omega, hend⟩

/-- Settles O52: no action is listed, so only the passing iterations count. -/
theorem quietCallTerminates : Obligations.QuietCallTerminates := by
  intro s hinv hm hb hquiet
  obtain ⟨hlisted, hends⟩ := Schedule.next_eq_none_iff.mp hquiet
  obtain ⟨k, hk, hbusy, hend⟩ := EndingCall.run ⟨hinv, hm, hb, hends, by simp [hlisted]⟩
  have hle := passesLeft_le s
  rw [State.callBound, hlisted] at hk
  exact ⟨k, hk.trans hle, hbusy, hend⟩

end Sys2Proof.Machine
end

section
/-! # Buffer: a call that never ends

A producer that keeps its contract and stays three slots ahead of the cursor, one capture for each iteration: the call
passes a slot at a time, once around the buffer after another, and never returns (43_buffer.md R178, 70_reset_and_hazards.md
R254, 93_implementation_defined.md I15). -/

namespace Sys2Proof.Machine

open Sys2Proof.Claims

variable {s : State} {rest : Schedule} {n c len : Nat}

/-! ## The producer's round -/

/-- From cursor c on, l times a capture three slots ahead of the cursor and an iteration that passes one slot. -/
def producerRound (n c : Nat) : Nat → List Input
  | 0 => []
  | l + 1 => .capture ((c + 3) % n) 1#32 :: .decoder :: producerRound n (c + 1) l

theorem producerRound_succ_last (n c l : Nat) :
    producerRound n c (l + 1) = producerRound n c l ++ [.capture ((c + l + 3) % n) 1#32, .decoder] := by
  induction l generalizing c with
  | zero => rfl
  | succ l ih =>
    have hc : c + 1 + l = c + (l + 1) := by omega
    rw [producerRound, ih, hc]
    rfl

theorem producerRound_mod (n c l : Nat) : producerRound n (c % n) l = producerRound n c l := by
  induction l generalizing c with
  | zero => rfl
  | succ l ih => rw [producerRound, producerRound, Nat.mod_add_mod, ← ih (c % n + 1), Nat.mod_add_mod, ih]

/-- The producer's rounds from cursor c on. -/
def roundsFrom (n c : Nat) : Schedule :=
  ⟨[], .cycle (producerRound n c n)⟩

/-- The rounds from cursor c on, with the first capture taken. -/
def capturedFrom (n c : Nat) : Schedule :=
  ⟨[], .cycle (.decoder :: producerRound n (c + 1) (n - 1) ++ [.capture ((c + 3) % n) 1#32])⟩

theorem next_roundsFrom (hn : 0 < n) (c : Nat) :
    (roundsFrom n c).next = some (.capture ((c + 3) % n) 1#32, capturedFrom n c) := by
  obtain ⟨l, rfl⟩ := Nat.exists_eq_succ_of_ne_zero hn.ne'
  rfl

/-- A capture and an iteration later the producer is one slot further on. -/
theorem next_capturedFrom (hn : 0 < n) (c : Nat) :
    (capturedFrom n c).next = some (.decoder, roundsFrom n ((c + 1) % n)) := by
  obtain ⟨l, rfl⟩ := Nat.exists_eq_succ_of_ne_zero hn.ne'
  have hlast : (c + 1 + l + 3) % (l + 1) = (c + 3) % (l + 1) := by
    have hsum : c + 1 + l + 3 = c + 3 + (l + 1) := by omega
    rw [hsum, Nat.add_mod_right]
  have hturn : producerRound (l + 1) ((c + 1) % (l + 1)) (l + 1) =
      producerRound (l + 1) (c + 1) l ++ [.capture ((c + 3) % (l + 1)) 1#32, .decoder] := by
    rw [producerRound_mod, producerRound_succ_last, hlast]
  rw [roundsFrom, Nat.succ_eq_add_one, hturn, capturedFrom, Nat.add_sub_cancel, List.cons_append,
    Schedule.next_cycle_cons, List.append_assoc]
  rfl

/-! ## A stretch of equal timestamps -/

theorem word_one_ne_zero : (1#32 : Word) ≠ 0#32 := by decide

/-- The len slots from the cursor on hold the timestamp 1, every other slot is empty. -/
def State.HoldsOnes (s : State) (len : Nat) : Prop :=
  s.HoldsEdges s.currentIndex len (fun _ => 1#32) ∧
    ∀ a, (∀ j < len, a ≠ (s.currentIndex + j) % s.cfg.bufferSize) → s.buf.read a = 0#32

/-- The next slot is free as long as the buffer is not full. -/
theorem State.HoldsOnes.read_next (h : s.HoldsOnes len) (hlen : len < s.cfg.bufferSize) :
    s.buf.read ((s.currentIndex + len) % s.cfg.bufferSize) = 0#32 :=
  h.2 _ fun _ hj => slot_ne_of_lt hj hlen

/-- A capture into the next slot lengthens the stretch. -/
theorem State.HoldsOnes.capture (h : s.HoldsOnes len) (hinv : s.Inv) (hlen : len < s.cfg.bufferSize) :
    ({ s with buf := s.buf.write ((s.currentIndex + len) % s.cfg.bufferSize) 1#32 } : State).HoldsOnes (len + 1) := by
  obtain ⟨hones, hempty⟩ := h
  refine ⟨fun j hj => ⟨?_, word_one_ne_zero⟩, fun a ha => ?_⟩
  · obtain hj | rfl := Nat.lt_succ_iff_lt_or_eq.mp hj
    · exact (Buffer.read_write_of_ne _ _ (slot_ne_of_lt hj hlen).symm).trans (hones j hj).1
    · exact Buffer.read_write_same hinv.buf_wf _ _
  · exact (Buffer.read_write_of_ne _ _ (ha len (Nat.lt_succ_self len))).trans
      (hempty a fun j hj => ha j (Nat.lt_succ_of_lt hj))

/-- Passing one slot shortens it. -/
theorem State.HoldsOnes.consume_one (h : s.HoldsOnes (len + 1)) (hinv : s.Inv) (hlen : len + 1 ≤ s.cfg.bufferSize) :
    (s.consume 1).HoldsOnes len := by
  obtain ⟨hones, hempty⟩ := h
  refine ⟨holdsEdges_consume hones hlen 1, fun a ha => ?_⟩
  by_cases h0 : a = (s.currentIndex + 0) % s.cfg.bufferSize
  · rw [h0]
    exact Buffer.read_zeroRun_of_lt hinv.buf_wf hinv.bufferSize_pos _ Nat.zero_lt_one
  · have hkeep : (s.consume 1).buf.read a = s.buf.read a :=
      Buffer.read_zeroRun_of_ne _ _ _ fun j hj => by rwa [Nat.lt_one_iff.mp hj]
    rw [hkeep]
    refine hempty a fun j hj => ?_
    cases j with
    | zero => exact h0
    | succ j =>
      have hslot := ha j (Nat.lt_of_succ_lt_succ hj)
      rwa [State.consume_currentIndex, State.consume_cfg, Nat.mod_add_mod, Nat.add_assoc, Nat.add_comm 1 j] at hslot

/-- Equal timestamps are 0 microseconds apart, which is no lead-in mark. -/
theorem State.HoldsOnes.selects_leadSkip (h : s.HoldsOnes 4) (hinv : s.Inv) (hb : s.phase = .busy)
    (hs : s.state = .leadIn) : s.Selects .leadSkip := by
  obtain ⟨hones, -⟩ := h
  have hmark : s.mark.toNat = 0 := by
    rw [mark_of_holdsEdges hones le_rfl, edgeMark, us_toNat, duration_toNat_of_le le_rfl, Nat.sub_self, Nat.zero_div]
  have hstart : ¬ StartPulse s := fun hp => absurd hp.1 (by rw [hmark]; decide)
  have hrepeat : ¬ RepeatPulse s := fun hp => absurd hp.1 (by rw [hmark]; decide)
  refine selects_of_passing (passing_of_holdsEdges hinv hb hones le_rfl) ?_
  rw [hs, leadClass_eq_none_of_not hstart hrepeat]
  rfl

/-! ## The run -/

/-- A call in LeadIn that the producer keeps fed: three timestamps before the next capture, four after it. -/
structure FedCall (s : State) : Prop where
  inv : s.Inv
  unmarked : s.Unmarked
  busy : s.phase = .busy
  leadIn : s.state = .leadIn
  size : 4 ≤ s.cfg.bufferSize
  fed : s.HoldsOnes 3 ∧ s.inputs = roundsFrom s.cfg.bufferSize s.currentIndex ∨
    s.HoldsOnes 4 ∧ s.inputs = capturedFrom s.cfg.bufferSize s.currentIndex

/-- The capture that comes next keeps the producer's contract (60_exceptions.md R214). -/
theorem FedCall.contractWrite (h : FedCall s) {i : Nat} {v : Word} (hq : s.inputs.next = some (.capture i v, rest)) :
    s.ContractWrite i v := by
  obtain ⟨hones, hin⟩ | ⟨-, hin⟩ := h.fed
  · rw [hin, next_roundsFrom h.inv.bufferSize_pos] at hq
    cases hq
    exact ⟨word_one_ne_zero, Nat.mod_lt _ h.inv.bufferSize_pos, hones.read_next h.size⟩
  · rw [hin, next_capturedFrom h.inv.bufferSize_pos] at hq
    cases hq

theorem FedCall.step (h : FedCall s) : ∃ t, step s = .next t ∧ FedCall t := by
  obtain ⟨hones, hin⟩ | ⟨hones, hin⟩ := h.fed
  · have hnext := next_roundsFrom h.inv.bufferSize_pos s.currentIndex
    rw [← hin] at hnext
    have hslot := Nat.mod_lt (s.currentIndex + 3) h.inv.bufferSize_pos
    refine ⟨_, (step_of_capture h.unmarked h.inv.legal hnext).trans (writeSlot_of_lt hslot), ?_⟩
    exact ⟨h.inv.with_buf (Buffer.wf_write h.inv.buf_wf hslot _), h.unmarked, h.busy, h.leadIn, h.size,
      .inr ⟨hones.capture h.inv h.size, rfl⟩⟩
  · have hnext := next_capturedFrom h.inv.bufferSize_pos s.currentIndex
    rw [← hin] at hnext
    have hsel := hones.selects_leadSkip h.inv h.busy h.leadIn
    refine ⟨_, step_of_decoder h.unmarked h.inv.legal hnext hsel, ?_⟩
    exact ⟨h.inv.consume 1, h.unmarked, h.busy, h.leadIn, h.size, .inl ⟨hones.consume_one h.inv h.size, rfl⟩⟩

theorem FedCall.run (h : FedCall s) (k : Nat) : ∃ t, Sys2Proof.core.run k s = .next t ∧ FedCall t := by
  induction k generalizing s with
  | zero => exact ⟨s, rfl, h⟩
  | succ k ih =>
    obtain ⟨t, hstep, ht⟩ := h.step
    rw [core_run_of_step hstep]
    exact ih ht

/-- A call on a buffer whose first three slots hold the timestamp 1. -/
def State.fedFromReset (c : Config) : State :=
  { State.resetWith c with
    phase := .busy
    buf := [(0, 1#32), (1, 1#32), (2, 1#32)]
    inputs := roundsFrom c.bufferSize 0 }

theorem fedCall_fedFromReset {c : Config} (hl : c.legal) (hn : 4 ≤ c.bufferSize) : FedCall (State.fedFromReset c) := by
  have hwf : Buffer.wf c.bufferSize [(0, 1#32), (1, 1#32), (2, 1#32)] = true := by
    simp [Buffer.wf, Buffer.wfFrom]
    omega
  have hinv : (State.fedFromReset c).Inv :=
    ⟨hl, hwf, fun _ => rfl, (State.inv_resetWith hl).2.2.2⟩
  have hslot (j : Nat) (hj : j < 3) : (0 + j) % c.bufferSize = j := by
    rw [Nat.zero_add]
    exact Nat.mod_eq_of_lt (by omega)
  refine ⟨hinv, ⟨rfl, rfl⟩, rfl, rfl, hn, .inl ⟨⟨fun j hj => ⟨?_, word_one_ne_zero⟩, fun a ha => ?_⟩, rfl⟩⟩
  · change Buffer.read _ ((0 + j) % c.bufferSize) = _
    rw [hslot j hj]
    interval_cases j <;> rfl
  · have hne (j : Nat) (hj : j < 3) : j ≠ a := fun e => ha j hj (e.symm.trans (hslot j hj).symm)
    have h0 := hne 0 (by decide)
    have h1 := hne 1 (by decide)
    have h2 := hne 2 (by decide)
    change Buffer.read [(0, 1#32), (1, 1#32), (2, 1#32)] a = 0#32
    simp [Buffer.read, h0, h1, h2]

/-- Settles O55: the producer's rounds, from three timestamps at the cursor on. -/
theorem callNeedNotEnd : Obligations.CallNeedNotEnd := by
  intro c hl hn
  have h := fedCall_fedFromReset hl hn
  refine ⟨State.fedFromReset c, rfl, h.inv, h.unmarked, h.busy, fun k => ?_⟩
  obtain ⟨t, hrun, ht⟩ := h.run k
  exact ⟨t, hrun, ht.busy, fun _ _ _ => ht.contractWrite⟩

end Sys2Proof.Machine
end

section
/-! # Control: the host commands

What `INIT`, `DECODE`, `RDREG` and `WRREG` answer in an Idle block (44_control.md R190, R191, R194, R195): the register
space is read and written by number (30_encoding.md R75), and a command that stops changes nothing. -/

namespace Sys2Proof.Machine

open Sys2Proof.Claims

variable {s : State} {q r : Reg} {d : Word}

theorem whenInitialised_of_initialised {k} (h : s.initialised = true) : whenInitialised s k = k := if_pos h

/-! ## `INIT` and `DECODE` -/

/-- Settles O28: `INIT` has no precondition but an Idle block. -/
theorem initLeavesTheResetValues : Obligations.InitLeavesTheResetValues :=
  fun _ hp => ⟨_, exec_init_of_idle hp, Buffer.read_nil, rfl⟩

/-- `slot(-1)` of R170 without the modulus. -/
theorem slotBehind_of_lt (h : s.currentIndex < s.cfg.bufferSize) :
    s.slotBehind = if s.currentIndex = 0 then s.cfg.bufferSize - 1 else s.currentIndex - 1 := by
  rw [State.slotBehind]
  split_ifs with h0
  · rw [h0, Nat.zero_add]
    exact Nat.mod_eq_of_lt (by omega)
  · have hwrap : s.currentIndex + (s.cfg.bufferSize - 1) = s.currentIndex - 1 + s.cfg.bufferSize := by omega
    rw [hwrap, Nat.add_mod_right]
    exact Nat.mod_eq_of_lt (by omega)

/-- The state in which a call begins: the deferred clear is done (R176, R191). -/
theorem deferredClear_busy_frame (s : State) :
    ({ s.deferredClear with phase := .busy } : State) =
      { s with phase := .busy, clearLast := false, buf := s.deferredClear.buf } := by
  conv_lhs => rw [s.deferredClear_frame]

/-- Settles O29: the call begins in the state that the deferred clear leaves. -/
theorem decodeScrubsAndStartsTheCall : Obligations.DecodeScrubsAndStartsTheCall := by
  intro s hinv hp
  refine ⟨exec_decode_of_not_initialised hp, fun hi => ?_⟩
  refine ⟨_, exec_decode_eq_next_iff.mpr ⟨hp, hi, rfl⟩, deferredClear_busy_frame s, fun hc => ?_, fun hc => ?_⟩
  · rw [State.deferredClear_of_clear hc]
  · rw [State.deferredClear_of_set hc, ← slotBehind_of_lt (hinv.currentIndex_lt hi)]
    exact ⟨Buffer.read_write_same hinv.buf_wf _ _, fun _ ha => Buffer.read_write_of_ne _ _ ha⟩

/-! ## Reading a register -/

/-- The response word is the register's value (R194); the cursor's bound makes it fit. -/
theorem readReg_toNat (hinv : s.Inv) (h : s.initialised = true ∨ ConfigReg r) :
    (s.readReg r).toNat = registerNat s r := by
  have hsize : s.cfg.bufferSize ≤ 2 ^ 32 := hinv.legal.2.2
  cases r
  case state => exact (BitVec.toNat_setWidth_of_le (by decide)).trans s.state.code_toNat
  case currentIndex =>
    have hi : s.initialised = true := h.resolve_right (by simp [ConfigReg])
    exact Nat.mod_eq_of_lt ((hinv.currentIndex_lt hi).trans_le hsize)
  case clearLast => cases hc : s.clearLast <;> simp [State.readReg, registerNat, hc]
  case repeatCount | period | clockSpeed => rfl
  case bufferSize =>
    change s.cfg.bufferSize % 2 ^ 32 = if s.cfg.bufferSize = 2 ^ 32 then 0 else s.cfg.bufferSize
    split_ifs with hfull
    · rw [hfull, Nat.mod_self]
    · exact Nat.mod_eq_of_lt (lt_of_le_of_ne hsize hfull)
  all_goals exact BitVec.toNat_setWidth_of_le (by decide)

/-- Settles O30: the word that is appended is the register's. -/
theorem rdregAnswersTheRegister : Obligations.RdregAnswersTheRegister := by
  intro s r hinv hp
  refine ⟨fun h => ⟨s.readReg r, ?_, readReg_toNat hinv h⟩, exec_rdreg_of_not_initialised hp⟩
  exact exec_rdreg_eq_next_iff.mpr ⟨hp, h.symm.imp_left Reg.isConfig_iff.mpr, rfl⟩

/-! ## Writing a register -/

/-- The legal values of R75 are those below `legalBound`. -/
theorem legalValue_iff (hinv : s.Inv) {v : Nat} : LegalValue s r v ↔ v < s.legalBound r := by
  cases r
  case currentIndex => exact Nat.le_sub_one_iff_lt hinv.bufferSize_pos
  case repeatCount => exact Nat.le_sub_one_iff_lt (Nat.two_pow_pos _)
  case period | clockSpeed | bufferSize => exact (iff_false_intro (Nat.not_lt_zero v)).symm
  all_goals exact Nat.lt_succ_iff.symm

theorem isConfig_eq_false_of_legalValue {v : Nat} (h : LegalValue s r v) : r.isConfig = false := by
  cases r
  case period | clockSpeed | bufferSize => exact h.elim
  all_goals rfl

theorem ofCode_stateCode {n : Nat} (h : n < 5) (p : ProtoState) : stateCode ((ProtoState.ofCode n).getD p) = n := by
  interval_cases n <;> rfl

/-- R195: the register written holds the value. -/
theorem registerNat_writeReg_same (hr : r.isConfig = false) (hd : d.toNat < s.legalBound r) :
    registerNat (s.writeReg d r) r = d.toNat := by
  cases r
  case state => exact ofCode_stateCode hd _
  case currentIndex | repeatCount => rfl
  case clearLast =>
    change (if decide (d = 1#32) = true then 1 else 0) = d.toNat
    have hd : d.toNat < 2 := hd
    have h1 : d = 1#32 ↔ d.toNat = 1 := BitVec.toNat_eq
    simp only [decide_eq_true_eq, h1]
    split_ifs <;> omega
  case period | clockSpeed | bufferSize => cases hr
  all_goals exact (BitVec.toNat_setWidth _ _).trans (Nat.mod_eq_of_lt hd)

/-- R195: every other register keeps its value. -/
theorem registerNat_writeReg_of_ne (h : q ≠ r) : registerNat (s.writeReg d r) q = registerNat s q := by
  cases q
  case state => simp only [registerNat, State.writeReg_state_of_ne h.symm]
  case currentIndex => exact State.writeReg_currentIndex_of_ne h.symm
  case pulseNumber => simp only [registerNat, State.writeReg_pulseNumber_of_ne h.symm]
  case clearLast => simp only [registerNat, State.writeReg_clearLast_of_ne h.symm]
  case period | clockSpeed | bufferSize => simp only [registerNat, State.writeReg_cfg]
  -- A Message field: every register but the field itself leaves it as it is.
  all_goals cases r <;> first | rfl | exact absurd rfl h

/-- A register write touches the four protocol registers and the Message at most. -/
theorem writeReg_frame (s : State) (d : Word) (r : Reg) :
    s.writeReg d r = { s with
      state := (s.writeReg d r).state, currentIndex := (s.writeReg d r).currentIndex
      pulseNumber := (s.writeReg d r).pulseNumber, clearLast := (s.writeReg d r).clearLast
      msg := (s.writeReg d r).msg } := by
  cases r <;> rfl

/-- Settles O31: a legal value is below the bound that `WRREG` checks. -/
theorem wrregWritesALegalValue : Obligations.WrregWritesALegalValue := by
  intro s r d hinv hp hi hlegal
  have hr := isConfig_eq_false_of_legalValue hlegal
  have hd := (legalValue_iff hinv).mp hlegal
  exact ⟨_, exec_wrreg_eq_next_iff.mpr ⟨hp, hi, hr, hd, rfl⟩, registerNat_writeReg_same hr hd,
    fun _ => registerNat_writeReg_of_ne, writeReg_frame s d r⟩

/-- The order of the checks of R195 after the initialised bit: the register, then the value. -/
theorem exec_wrreg_of_initialised (hp : s.phase = .idle) (hi : s.initialised = true) (r : Reg) (d : Word) :
    exec (.wrreg r d) s =
      if r.isConfig then .refused .readOnlyRegister
      else if d.toNat < s.legalBound r then .next (s.writeReg d r)
      else .refused .illegalRegisterValue :=
  (whileIdle_of_idle hp).trans (whenInitialised_of_initialised hi)

/-- Settles O32, one check after another. -/
theorem wrregStopsOtherwise : Obligations.WrregStopsOtherwise := by
  intro s r d hinv hp
  refine ⟨fun hi => exec_wrreg_of_not_initialised hp hi r d, fun hi hr => ?_, fun hi hr hv => ?_⟩
  · rw [exec_wrreg_of_initialised hp hi, if_pos (Reg.isConfig_iff.mpr hr)]
  · rw [exec_wrreg_of_initialised hp hi, if_neg (mt Reg.isConfig_iff.mp hr),
      if_neg (mt (legalValue_iff hinv).mpr hv)]

end Sys2Proof.Machine
end

section
/-! # Control: what a step runs, and what it delivers

The instruction of a step (44_control.md R192, R196, 60_exceptions.md R213), the iteration that returns (R193), who
delivers (R197), and a call on too little data (43_buffer.md R179). -/

namespace Sys2Proof.Machine

open Sys2Proof.Claims

variable {s : State} {i : Instr} {cmd : Byte} {data : Word} {w : BitVec 7} {rest : Schedule}

/-! ## Outside their turn -/

theorem selectorTable_instr_isRow : ∀ row ∈ selectorTable, Instr.isRow row.instr = true := by decide

theorem isRow_of_decodeSelector (h : decodeSelector w = some i) : Instr.isRow i = true := by
  obtain ⟨row, hrow, -, rfl⟩ := decodeSelector_eq_some_iff.mp h
  exact selectorTable_instr_isRow row hrow

/-- Settles O35, by the guard that the commands share and the one that the rows share. -/
theorem meaningsStopOutsideTheirTurn : Obligations.MeaningsStopOutsideTheirTurn := by
  refine fun s => ⟨fun hb => ?_, fun i w hi hsel => ?_⟩
  · exact ⟨whileIdle_of_busy hb, whileIdle_of_busy hb, fun _ => whileIdle_of_busy hb, fun _ _ => whileIdle_of_busy hb⟩
  · rw [exec_row (isRow_of_decodeSelector (decode_selector_eq_instr_iff.mp hi)), onRow_of_not_selects hsel]

/-! ## The instruction of a step -/

/-- An Idle block takes the host's command byte (R213). -/
theorem scheduledTurn_of_command (hp : s.phase = .idle) (hq : s.inputs.next = some (.command cmd data, rest)) :
    scheduledTurn s = commandTurn cmd data { s with inputs := rest } := by
  simp only [scheduledTurn, hq, hp]

theorem step_of_command (hm : s.Unmarked) (hl : s.cfg.legal) (hp : s.phase = .idle)
    (hq : s.inputs.next = some (.command cmd data, rest)) (hi : decodeCommand cmd data = some i) :
    step s = exec i { s with inputs := rest } :=
  step_of_turn <|
    calc nextTurn s = scheduledTurn s := nextTurn_of_unmarked hm.1 hm.2 hl
      _ = commandTurn cmd data { s with inputs := rest } := scheduledTurn_of_command hp hq
      _ = .run i { s with inputs := rest } := commandTurn_of_decode hi

theorem commandTurn_of_reserved (h : decodeCommand cmd data = none) :
    commandTurn cmd data s = .done (.refused .reservedCommand) := by
  rw [commandTurn, h]

/-- Settles O34: a reserved byte decodes to no instruction, so the step is done with the refusal. -/
theorem reservedCommandIsRefused : Obligations.ReservedCommandIsRefused := by
  intro s b d rest hm hl hp hq h1 h2 hrd hwr
  have hnone : decodeCommand b d = none := decodeCommand_eq_none_iff.mpr ⟨h1, h2, hrd, hwr⟩
  have hstep : step s = .refused .reservedCommand :=
    step_of_scheduledTurn_done hm hl ((scheduledTurn_of_command hp hq).trans (commandTurn_of_reserved hnone))
  exact ⟨hstep, by rw [markedStep, hstep, State.afterOutcome]⟩

/-- Settles O36: a command byte is decoded while Idle; while Busy the decoded row is selected, and selected rows run. -/
theorem stepRunsTheDecodedInstruction : Obligations.StepRunsTheDecodedInstruction := by
  intro s i hm hl
  refine ⟨fun cmd data rest hp hq hi => ?_, fun hb hi hq => ?_, fun rest hb hi hq => ?_⟩
  · exact step_of_command hm hl hp hq (decode_command_eq_instr_iff.mp hi)
  · have hsel : s.Selects i := ⟨hb, decode_selector_eq_instr_iff.mp hi⟩
    rw [step_of_leavesTheMove hm hl hq hsel, exec_of_selects hsel]
  · have hsel : s.Selects i := ⟨hb, decode_selector_eq_instr_iff.mp hi⟩
    rw [step_of_decoder hm hl hq hsel, exec_of_selects ((s.selects_inputs rest i).mpr hsel)]

/-! ## The iteration that returns -/

theorem selects_ret_of_not_gate (hb : s.phase = .busy) (hg : s.snapshot.gate = false) : s.Selects .ret :=
  (s.selects_iff .ret).mpr ⟨hb, by rw [hg]; rfl⟩

/-- Settles O15: a failing gate selects `RETURN`. -/
theorem returnEndsTheCall : Obligations.ReturnEndsTheCall :=
  ⟨hasRow_of_mem (by decide), fun _ hb hg => exec_of_selects (selects_ret_of_not_gate hb hg)⟩

/-! ## Deliveries -/

/-- R197: the event carries the Message that the row leaves. -/
theorem rowEffect_deliveries_of_delivers (h : i = .leadRepeat ∨ FrameRow i) :
    (rowEffect i s).deliveries = s.deliveries ++ [(rowEffect i s).msg] := by
  rcases h with rfl | rfl | rfl | rfl <;> rfl

theorem rowEffect_deliveries_of_not (hrep : i ≠ .leadRepeat) (hframe : ¬ FrameRow i) :
    (rowEffect i s).deliveries = s.deliveries := by
  cases i
  case leadRepeat => exact absurd rfl hrep
  case cinvFrameX | cinvFrame0 | cinvFrame1 => simp [FrameRow] at hframe
  all_goals rfl

theorem isRow_of_delivers (h : i = .leadRepeat ∨ FrameRow i) : Instr.isRow i = true := by
  rcases h with rfl | rfl | rfl | rfl <;> rfl

/-- Settles O43: a row by its effect; a host command delivers nothing. -/
theorem deliveriesOnlyByRepeatAndFrame : Obligations.DeliveriesOnlyByRepeatAndFrame := by
  intro i s t hx
  refine ⟨fun h => ?_, fun hrep hframe => ?_⟩
  · obtain ⟨-, rfl⟩ := (exec_row_eq_next_iff (isRow_of_delivers h)).mp hx
    exact rowEffect_deliveries_of_delivers h
  · rcases exec_cases hx with ⟨-, -, rfl⟩ | ⟨-, -, rfl⟩ | ⟨-, -, -, rfl⟩ | ⟨r, -, -, rfl⟩ | ⟨r, d, -, -, -, rfl⟩
    · exact rowEffect_deliveries_of_not hrep hframe
    · rfl
    · rw [s.deferredClear_frame]
    · rfl
    · rw [writeReg_frame]

/-! ## A call on too little data -/

/-- R179: two timestamps at the cursor and nothing else do not pass the gate. -/
theorem gate_eq_false_of_two_edges (hn : 4 ≤ s.cfg.bufferSize)
    (h : ∀ a, a ≠ s.currentIndex % s.cfg.bufferSize → a ≠ (s.currentIndex + 1) % s.cfg.bufferSize →
      s.buf.read a = 0#32) : s.snapshot.gate = false := by
  have hempty (k : Nat) (h1 : 1 < k) (h4 : k < 4) : s.buf.read (s.slot k) = 0#32 :=
    h _ (slot_ne_of_lt (a := 0) (by omega) (by omega)) (slot_ne_of_lt h1 (by omega))
  obtain ⟨-, -, -, hgate, -⟩ := gateZeroPatterns s.snapshot.t0 s.snapshot.t1 s.snapshot.t2 s.snapshot.t3
  exact hgate (hempty 2 (by decide) (by decide)) (hempty 3 (by decide) (by decide))

/-- A call that returns at once leaves the Idle state it began in. -/
theorem rowEffect_ret_of_entered (hp : s.phase = .idle) :
    rowEffect .ret { s with phase := .busy } = s := by
  change ({ s with phase := .idle } : State) = s
  rw [← hp]

/-- Settles O51: `DECODE` only enters the call, and the first iteration returns. -/
theorem insufficientDataIsIdempotent : Obligations.InsufficientDataIsIdempotent := by
  intro s d rest hinv hm hp hi hc hn hq hquiet hempty
  have hdecode : step s = .next { s with inputs := rest, phase := .busy } := by
    have hclear : ({ s with inputs := rest } : State).deferredClear = { s with inputs := rest } :=
      State.deferredClear_of_clear hc
    rw [step_of_command hm hinv.legal hp hq (decodeCommand_eq_decode_iff.mpr rfl)]
    exact exec_decode_eq_next_iff.mpr ⟨hp, hi, by rw [hclear]⟩
  have hreturn : step { s with inputs := rest, phase := .busy } = .next { s with inputs := rest } := by
    have hsel : State.Selects { s with inputs := rest, phase := .busy } .ret :=
      selects_ret_of_not_gate rfl (gate_eq_false_of_two_edges hn hempty)
    rw [step_of_selects (s := { s with inputs := rest, phase := .busy }) hm hinv.legal hquiet hsel]
    exact congrArg _ (rowEffect_ret_of_entered (s := { s with inputs := rest }) hp)
  rw [core_run_of_step hdecode, core_run_of_step hreturn]
  rfl

end Sys2Proof.Machine
end

section
/-! # Rest and marks

An Idle block with nothing scheduled rests (60_exceptions.md R224), and the mark of a fault or a refusal stays (R211,
R212). -/

namespace Sys2Proof.Machine

variable {s : State} {f : Fault} {r : Refusal}

/-! ## Rest -/

/-- With nothing scheduled it is the decoder's move, and an Idle decoder makes none. -/
theorem scheduledTurn_of_rest (hp : s.phase = .idle) (hq : s.inputs.next = none) :
    scheduledTurn s = .done (.next s) := by
  simp only [scheduledTurn, hq, decoderTurn, hp]

/-- Settles O38: the turn is done with the state itself. -/
theorem idleBlockWithoutInputRests : Obligations.IdleBlockWithoutInputRests :=
  fun _ hm hl hp hq => step_of_scheduledTurn_done hm hl (scheduledTurn_of_rest hp hq)

/-! ## Marks -/

/-- A fault mark comes before a refusal mark, the configuration and the schedule. -/
theorem step_of_faultMark (h : s.faultMark = some f) : step s = .fault f :=
  step_of_done (by simp only [nextTurn, h])

theorem step_of_refusalMark (hf : s.faultMark = none) (h : s.refusalMark = some r) : step s = .refused r :=
  step_of_done (by simp only [nextTurn, hf, h])

theorem markedStep_of_fault (h : step s = .fault f) : markedStep s = { s with faultMark := some f } := by
  rw [markedStep, h, State.afterOutcome]

theorem markedStep_of_refused (h : step s = .refused r) : markedStep s = { s with refusalMark := some r } := by
  rw [markedStep, h, State.afterOutcome]

/-- A fault that is already marked changes nothing. -/
theorem State.setFaultMark_of_marked (h : s.faultMark = some f) : { s with faultMark := some f } = s := by
  rw [← h]

theorem State.setRefusalMark_of_marked (h : s.refusalMark = some r) : { s with refusalMark := some r } = s := by
  rw [← h]

/-- Settles O39: a marked state repeats the outcome of its mark, and setting that mark again changes nothing. -/
theorem marksAreNeverCleared : Obligations.MarksAreNeverCleared := by
  refine fun s => ⟨fun f hf => ?_, fun r hf hr => ?_, fun _ => markedStep_of_fault, fun _ => markedStep_of_refused⟩
  · have hstep : step s = .fault f := step_of_faultMark hf
    exact ⟨hstep, (markedStep_of_fault hstep).trans (State.setFaultMark_of_marked hf)⟩
  · have hstep : step s = .refused r := step_of_refusalMark hf hr
    exact ⟨hstep, (markedStep_of_refused hstep).trans (State.setRefusalMark_of_marked hr)⟩

end Sys2Proof.Machine
end

section
/-! # The configuration

The configuration is fixed at build time (10_state.md R27, 70_reset_and_hazards.md R242). -/

namespace Sys2Proof.Machine

/-- Settles O42: rows, commands and accesses all leave the configuration as it is, so every step does. -/
theorem configurationNeverChanges : Obligations.ConfigurationNeverChanges :=
  fun _ _ => step_cfg

end Sys2Proof.Machine
end
